-- ==== Sys2Proof/Word.lean ====
section
/-! DEFINITION. The word types of the QOI encoder core and the pixel record (spec 00 R8, R9; 30 R71). -/

namespace Sys2Proof

/-- `u8` of rule R8: an 8-bit unsigned value. -/
abbrev Byte := BitVec 8

/-- `u32` of rule R8: the width of W, H and STATUS. -/
abbrev Word32 := BitVec 32

/-- A host command word (rule R71): `op` in bits 65:64, `arg` in bits 63:0. -/
abbrev CmdWord := BitVec 66

/-- A pixel (rule R9): four bytes. Equality is exact 4-tuple comparison. -/
structure Pixel where
  r : Byte
  g : Byte
  b : Byte
  a : Byte
deriving DecidableEq, Repr

/-- The value START writes to every cache slot (rule R171). -/
def Pixel.cleared : Pixel := ⟨0, 0, 0, 0⟩

/-- `sext_8` of rule R8: the byte read as a two's-complement integer in [-128,127]. -/
def sext8 (v : Byte) : Int := v.toInt

end Sys2Proof
end

