-- ==== Sys2Proof/Config.lean ====
section
/-! DEFINITION. The implementation parameters (spec 00 R6, R7; 10 R33; 44 R178) and the free values. The values
the block is built with stand in Decode.lean (blockConfig). -/

namespace Sys2Proof

/-- What DIFF and LUMA do when there is no previous pixel (R33, R139). -/
inductive PrevInitPolicy where
  /-- Both decline: the default. -/
  | decline
  /-- Both take the reference pixel (0,0,0,255). -/
  | std
deriving DecidableEq, Repr

/-- The configuration fields of R33: fixed for a model instance, not state. -/
structure Config where
  /-- `TAG_INDEX` (R75). -/
  tagIndex : Byte
  /-- `TAG_DIFF` (R75). -/
  tagDiff : Byte
  /-- `TAG_LUMA` (R75). -/
  tagLuma : Byte
  /-- `TAG_RUN` (R75). -/
  tagRun : Byte
  /-- `TAG_RGB` (R75). -/
  tagRgb : Byte
  /-- `PREV_INIT_POLICY` (R33). -/
  prevInitPolicy : PrevInitPolicy
  /-- `FINAL_RUN_BIAS`, 0 or 1 (R33). -/
  finalRunBias : Fin 2
  /-- The size B of a finite output buffer, `none` where `out` is unbounded (R178, R194). -/
  outputCapacity : Option Nat
deriving DecidableEq, Repr

/-- FREE VALUE (log 4): the n-th unspecified byte. START leaves `frag[0..1]` unspecified (R20, R210); nothing in
Lean can evaluate this constant, so a theorem holds whatever bytes stand there. -/
opaque Config.freeByte : Nat → Byte

end Sys2Proof
end

