-- ==== Sys2Proof/Syntax.lean ====
section
/-! DEFINITION. The instructions: one constructor per row of spec/opcode_table.json, and the transfers that
carry them over the block's ports (spec 30 R70, R71, R74; 44 R170, R180). -/

namespace Sys2Proof

/-- One constructor per row of the opcode table. The first four are host commands, the fifth the read of the
status port, the others the stream items that the block writes to its output. -/
inductive Instr where
  /-- NOP (R172). -/
  | nop
  /-- START W, H (R171). -/
  | start (w h : Word32)
  /-- DATA byte (R173). -/
  | data (x : Byte)
  /-- END (R175). -/
  | endEncode
  /-- STATUS_READ, on the status port (R176). -/
  | statusRead
  /-- INDEX idx (R80, R127). -/
  | index (idx : BitVec 6)
  /-- DIFF with the biased fields rt, gt, bt (R81, R130). -/
  | diff (rt gt bt : BitVec 2)
  /-- LUMA with the biased fields g = dg + 32, rt, bt (R82, R134). -/
  | luma (g : BitVec 6) (rt bt : BitVec 4)
  /-- RUN as the interior flush emits it, field n = run - 1 (R83, R124). -/
  | runInterior (n : BitVec 6)
  /-- RUN as the final flush emits it, field n = run - FINAL_RUN_BIAS (R84, R160). -/
  | runFinal (n : BitVec 6)
  /-- RGB r, g, b (R85, R137). -/
  | rgb (r g b : Byte)
  /-- The reserved byte 0xFF, which the block never emits (R88). -/
  | rgbaReserved
  /-- HEADER W, H (R86, R100). -/
  | header (w h : Word32)
  /-- TERMINATOR (R87, R161). -/
  | terminator
deriving DecidableEq, Repr

/-- Where an item stands in the output stream (R58, R76): the header and the terminator are recognised by
position alone, and so is the final flush byte, which END emits right before the terminator. -/
inductive Position where
  | header
  | operation
  | finalFlush
  | terminator
deriving DecidableEq, Repr

/-- One transfer on the block's ports. The host makes the first, second, fourth and fifth (R170, R180, R212).
`item` is the MODEL'S OWN (DESIGN CHOICE, log 11): it hands the byte-stream writer (R1 sub-unit 4, R90) one item
of the opcode table, so that every row can be run as an instruction; no host of the hardware can issue it. -/
inductive Transfer where
  /-- A word on the command port. -/
  | command (w : CmdWord)
  /-- A read of the status port. -/
  | statusRead
  /-- The bytes of one stream item at its position (the model's own). -/
  | item (pos : Position) (bytes : List Byte)
  /-- The host takes one byte from the output port. -/
  | takeByte
  /-- Power-on reset. -/
  | reset
deriving DecidableEq, Repr

end Sys2Proof
end

