-- ==== Sys2Proof/WellFormed.lean ====
section
/-! DEFINITION. Which instructions are well formed: the field ranges the spec states beyond a field's width
(spec 30 R74, R83, R84, R89). -/

namespace Sys2Proof

/-- The field ranges of R83 and R84. Every other field takes all values of its width (R72, R80 to R82, R85, R86). -/
def Instr.wf (c : Config) : Instr → Bool
  | .runInterior n => n.toNat ≤ 61
  | .runFinal n => 1 ≤ n.toNat + c.finalRunBias.val && n.toNat + c.finalRunBias.val ≤ 62
  | .nop => true
  | .start _ _ => true
  | .data _ => true
  | .endEncode => true
  | .statusRead => true
  | .index _ => true
  | .diff _ _ _ => true
  | .luma _ _ _ => true
  | .rgb _ _ _ => true
  | .rgbaReserved => true
  | .header _ _ => true
  | .terminator => true

end Sys2Proof
end

