-- ==== Sys2Proof/Decode.lean ====
section
/-! DEFINITION. The values the block is built with, the decoder of command words (spec 30 R71 to R73) and of stream
items (R74 to R76, R80 to R88), and the encoder. All of it may be mended by a later repair. -/

namespace Sys2Proof

/-- The block's parameters: the values taken in R7 and R75 (the tags are the public QOI values, PRESUMED by the
spec itself, log 1), the defaults of R33 (log 2), and an unbounded `out` (R26). -/
def blockConfig : Config where
  tagIndex := 0x00
  tagDiff := 0x40
  tagLuma := 0x80
  tagRun := 0xC0
  tagRgb := 0xFE
  prevInitPolicy := .decline
  finalRunBias := 0
  outputCapacity := none

/-! ## Bytes of words -/

/-- The big-endian bytes of a 32-bit value (R53). -/
def bigEndian32 (w : Word32) : List Byte :=
  [w.extractLsb' 24 8, w.extractLsb' 16 8, w.extractLsb' 8 8, w.extractLsb' 0 8]

/-- The 32-bit value of four big-endian bytes (R53). -/
def ofBigEndian32 (b3 b2 b1 b0 : Byte) : Word32 := b3 ++ b2 ++ b1 ++ b0

/-- ASCII "qoif" (R86, R102; the codes are general knowledge, spec 93 G4). -/
def magicBytes : List Byte := [0x71, 0x6F, 0x69, 0x66]

/-- `CHANNELS_BYTE` (R6). -/
def channelsByte : Byte := 0x03

/-- `COLORSPACE_BYTE` (R6). -/
def colorspaceByte : Byte := 0x01

/-- The reserved pattern 0xFF (R88). -/
def reservedByte : Byte := 0xFF

/-- The terminator: seven zero bytes, then 1 (R87). -/
def terminatorBytes : List Byte := [0, 0, 0, 0, 0, 0, 0, 1]

/-- The header: magic, W, H, channels, colorspace (R86). -/
def headerBytes (w h : Word32) : List Byte :=
  magicBytes ++ bigEndian32 w ++ bigEndian32 h ++ [channelsByte, colorspaceByte]

/-! ## Stream items -/

/-- A 6-bit field ORed into a tag byte (R80, R82, R83, R84, R89). -/
def tagged6 (tag : Byte) (n : BitVec 6) : Byte := tag ||| n.setWidth 8

/-- The bytes of a stream item (R80 to R88). The host commands and the status read are no stream items. -/
def itemBytes (c : Config) : Instr → List Byte
  | .index idx => [tagged6 c.tagIndex idx]
  | .diff rt gt bt => [c.tagDiff ||| (rt.setWidth 8 <<< 4) ||| (gt.setWidth 8 <<< 2) ||| bt.setWidth 8]
  | .luma g rt bt => [tagged6 c.tagLuma g, (rt.setWidth 8 <<< 4) ||| bt.setWidth 8]
  | .runInterior n => [tagged6 c.tagRun n]
  | .runFinal n => [tagged6 c.tagRun n]
  | .rgb r g b => [c.tagRgb, r, g, b]
  | .rgbaReserved => [reservedByte]
  | .header w h => headerBytes w h
  | .terminator => terminatorBytes
  | .nop => []
  | .start _ _ => []
  | .data _ => []
  | .endEncode => []
  | .statusRead => []

/-- Bits 7:6 of a byte, in place: what the four 2-bit tags are told apart by (R75, R76). -/
def tagBits (b : Byte) : Byte := b &&& 0xC0

/-- The low six bits of a byte (R80, R82 to R84). -/
def low6 (b : Byte) : BitVec 6 := b.extractLsb' 0 6

/-- How many bytes an operation item has, by its first byte, tested in the order of R76. -/
def itemLength (c : Config) (first : Byte) : Nat :=
  if first = c.tagRgb then 4
  else if first = reservedByte then 1
  else if tagBits first = c.tagLuma then 2
  else 1

/-- Why bytes or words are no instruction. -/
inductive DecodeError where
  /-- A command word with a "must be 0" bit set (R72). -/
  | illegalWord
  /-- The item's bytes are too few or too many for its first byte or its position (R74, R76). -/
  | wrongLength
  /-- Fourteen bytes that are not a header (R86). -/
  | badHeader
  /-- Eight bytes that are not the terminator (R87). -/
  | badTerminator
  /-- A byte at the final flush's position that the final flush never emits (R84). -/
  | notFinalFlush
  /-- A byte whose tag bits are none of the block's tags (possible only for tags other than R75's). -/
  | noSuchTag
  /-- A transfer that carries no instruction (a byte taken from the output port, a reset). -/
  | noInstruction
deriving DecidableEq, Repr

/-- The decoder of command words: R73, total. -/
def decodeCommand (w : CmdWord) : Except DecodeError Instr :=
  let op : BitVec 2 := w.extractLsb' 64 2
  let arg : BitVec 64 := w.extractLsb' 0 64
  if op = 0b00 then
    if arg = 0 then .ok .nop else .error .illegalWord
  else if op = 0b01 then
    .ok (.start (w.extractLsb' 32 32) (w.extractLsb' 0 32))
  else if op = 0b10 then
    if w.extractLsb' 8 56 = (0 : BitVec 56) then .ok (.data (w.extractLsb' 0 8)) else .error .illegalWord
  else
    if arg = 0 then .ok .endEncode else .error .illegalWord

/-- One item of the operation stream, by its first byte in the order of R76. The tags of the four 2-bit
operations are compared in bits 7:6 (R75). -/
def decodeOperation (c : Config) : List Byte → Except DecodeError Instr
  | [] => .error .wrongLength
  | b :: rest =>
    if b = c.tagRgb then
      match rest with
      | [r, g, bl] => .ok (.rgb r g bl)
      | _ => .error .wrongLength
    else if b = reservedByte then
      if rest = [] then .ok .rgbaReserved else .error .wrongLength
    else if tagBits b = c.tagLuma then
      match rest with
      | [b1] => .ok (.luma (low6 b) (b1.extractLsb' 4 4) (b1.extractLsb' 0 4))
      | _ => .error .wrongLength
    else if rest ≠ [] then .error .wrongLength
    else if tagBits b = c.tagIndex then .ok (.index (low6 b))
    else if tagBits b = c.tagDiff then
      .ok (.diff (b.extractLsb' 4 2) (b.extractLsb' 2 2) (b.extractLsb' 0 2))
    else if tagBits b = c.tagRun then .ok (.runInterior (low6 b))
    else .error .noSuchTag

/-- The byte before the terminator, read as the final flush (R84): every value in the range of its field, 0xFE
among them (R162). -/
def decodeFinalFlush (c : Config) : List Byte → Except DecodeError Instr
  | [b] =>
    if tagBits b = c.tagRun ∧ (Instr.runFinal (low6 b)).wf c = true then .ok (.runFinal (low6 b))
    else .error .notFinalFlush
  | _ => .error .wrongLength

/-- The fourteen bytes at offset 0 (R76, R86). -/
def decodeHeader : List Byte → Except DecodeError Instr
  | [m0, m1, m2, m3, w3, w2, w1, w0, h3, h2, h1, h0, ch, cs] =>
    if [m0, m1, m2, m3] = magicBytes ∧ ch = channelsByte ∧ cs = colorspaceByte then
      .ok (.header (ofBigEndian32 w3 w2 w1 w0) (ofBigEndian32 h3 h2 h1 h0))
    else .error .badHeader
  | _ => .error .wrongLength

/-- The last eight bytes of a stream (R76, R87). -/
def decodeTerminator (bs : List Byte) : Except DecodeError Instr :=
  if bs = terminatorBytes then .ok .terminator
  else if bs.length = terminatorBytes.length then .error .badTerminator
  else .error .wrongLength

/-- The decoder, total on every transfer, rejecting by name. -/
def decode (c : Config) : Transfer → Except DecodeError Instr
  | .command w => decodeCommand w
  | .statusRead => .ok .statusRead
  | .item .header bs => decodeHeader bs
  | .item .operation bs => decodeOperation c bs
  | .item .finalFlush bs => decodeFinalFlush c bs
  | .item .terminator bs => decodeTerminator bs
  | .takeByte => .error .noInstruction
  | .reset => .error .noInstruction

/-! ## The encoder -/

/-- A command word from its selector and payload (R71). -/
def commandWord (op : BitVec 2) (arg : BitVec 64) : CmdWord := op ++ arg

/-- The transfer that carries an instruction: a command word (R71), the status read (R176), or the bytes of a
stream item (R80 to R88) at the item's position (R58, R76). -/
def encode (c : Config) : Instr → Transfer
  | .nop => .command (commandWord 0b00 0)
  | .start w h => .command (commandWord 0b01 (w ++ h))
  | .data x => .command (commandWord 0b10 (x.setWidth 64))
  | .endEncode => .command (commandWord 0b11 0)
  | .statusRead => .statusRead
  | .index idx => .item .operation (itemBytes c (.index idx))
  | .diff rt gt bt => .item .operation (itemBytes c (.diff rt gt bt))
  | .luma g rt bt => .item .operation (itemBytes c (.luma g rt bt))
  | .runInterior n => .item .operation (itemBytes c (.runInterior n))
  | .runFinal n => .item .finalFlush (itemBytes c (.runFinal n))
  | .rgb r g b => .item .operation (itemBytes c (.rgb r g b))
  | .rgbaReserved => .item .operation (itemBytes c .rgbaReserved)
  | .header w h => .item .header (itemBytes c (.header w h))
  | .terminator => .item .terminator (itemBytes c .terminator)

/-! ## Words numbered as the opcode table numbers them (log 20) -/

/-- The `k` bytes of a number, most significant first: a stream item is read as one number whose first byte is
the most significant (spec 98, opcode_table.json LUMA and RGB). -/
def bytesOfNat : Nat → Nat → List Byte
  | 0, _ => []
  | k + 1, w => BitVec.ofNat 8 (w / 256 ^ k) :: bytesOfNat k w

/-- An operation item's bytes, filled up with zero bytes to the length its first byte asks for (R76). -/
def padOperation (c : Config) : List Byte → List Byte
  | [] => []
  | b :: rest => b :: (rest ++ List.replicate (itemLength c b - 1 - rest.length) 0)

/-- The transfer that carries an opcode-table word of `nbits` bits: 66 bits (72 in whole bytes) a command word,
none the status read, one to four bytes an operation item, eight the terminator, fourteen the header. -/
def tableTransfer (c : Config) (nbits w : Nat) : Option Transfer :=
  if nbits = 66 ∨ nbits = 72 then
    if w < 2 ^ 66 then some (.command (BitVec.ofNat 66 w)) else none
  else if nbits = 0 then some .statusRead
  else if nbits = 64 then some (.item .terminator (bytesOfNat 8 w))
  else if nbits = 112 then some (.item .header (bytesOfNat 14 w))
  else if nbits = 8 ∨ nbits = 16 ∨ nbits = 24 ∨ nbits = 32 then
    some (.item .operation (padOperation c (bytesOfNat (nbits / 8) w)))
  else none

/-- The instruction the decoder reads from an opcode-table word. -/
def decodeTableWord (nbits w : Nat) : Option Instr :=
  (tableTransfer blockConfig nbits w).bind fun t => (decode blockConfig t).toOption

end Sys2Proof
end

