-- ==== Sys2Proof/Machine/State.lean ====
section
/-! DEFINITION. The state of the block and of its ports, the faults and refusals, and the state after reset
(spec 10 R20 to R31; 44 R170, R178; 60 R190 to R193; 70 R210). -/

namespace Sys2Proof.Machine

/-- The codes of the phase register (R21). Code 3 is never reached. -/
abbrev phaseIdle : BitVec 2 := 0#2
/-- STREAM (R21). -/
abbrev phaseStream : BitVec 2 := 1#2
/-- DONE (R21). -/
abbrev phaseDone : BitVec 2 := 2#2

/-- `FAULT(reason)` of R190 and R193: a register holds a value outside its legal range. Raised by every step from
such a state. SAFE: the spec makes it a fault, and no run from reset reaches one. -/
inductive Fault where
  /-- `phase` = 3. Raised by every step and every meaning. Safe. -/
  | badPhase
  /-- `run` = 63. Raised by every step and every meaning. Safe. -/
  | badRun
  /-- `frag_len` = 3. Raised by every step and every meaning. Safe. -/
  | badFrag
deriving DecidableEq, Repr

/-- `REFUSED(reason)` of R190 and R192, and the model's own refusals. -/
inductive Refusal where
  /-- An instruction without a meaning yet: raised only by an arm of `exec`. Safe. -/
  | notModelled (mnemonic : String)
  /-- `ILLEGAL_WORD` (R72): a command word with a reserved bit set. Raised by `step`, which records it. Safe. -/
  | illegalWord
  /-- `START_WHILE_STREAMING` (R179): raised by START in STREAM. Safe. -/
  | startWhileStreaming
  /-- `DATA_OUTSIDE_STREAM` (R179): raised by DATA outside STREAM. Safe. -/
  | dataOutsideStream
  /-- `END_OUTSIDE_STREAM` (R179): raised by END outside STREAM. Safe. -/
  | endOutsideStream
  /-- The reserved byte 0xFF, to which the spec gives no effect (R88): raised by RGBA_RESERVED. Safe. -/
  | rgbaReserved
  /-- Bytes on the model's own item port that are no stream item: raised by `step`. Safe. -/
  | illegalItem
deriving DecidableEq, Repr

end Sys2Proof.Machine

namespace Sys2Proof.Machine

/-- The state. The first eight fields are the record `S` of R20; `refusalMark` is that of R192 and R210; the
others are the host's side of the three ports (R170, R178) and the model's own counter of free values. -/
structure State where
  /-- The phase register (R21), all four bit patterns. -/
  phase : BitVec 2
  /-- The pixel cache (R22). -/
  cache : Vector Pixel 64
  /-- The previous-pixel register (R23). -/
  prev : Option Pixel
  /-- The run counter (R24), all 64 bit patterns. -/
  run : BitVec 6
  /-- How many input bytes are held (R25), all four bit patterns. -/
  fragLen : BitVec 2
  /-- `frag[0]` (R25). -/
  frag0 : Byte
  /-- `frag[1]` (R25). -/
  frag1 : Byte
  /-- The output stream of the current encode (R26). -/
  out : List Byte
  /-- The refusal mark (R192, R210). -/
  refusalMark : Bool
  /-- The reason recorded with the most recent refusal (R190; log 7). -/
  refusalReason : Option Refusal
  /-- The transfers the host has pending, the next one first (R170, R180; log 5). -/
  port : List Transfer
  /-- What the host's last STATUS read returned (R176; log 15). -/
  statusData : Option Word32
  /-- How many bytes of `out` the output port has delivered (R178; log 14). -/
  delivered : Nat
  /-- The bytes the host has taken, oldest first (R178, R211; log 14). -/
  received : List Byte
  /-- The MODEL'S OWN: how many free bytes have been drawn (log 4). -/
  draws : Nat
deriving DecidableEq, Repr

/-- Power-on reset (R31, R210): IDLE and the mark clear. The spec leaves every other field of `S` unspecified and
lets a model give it any value; the values here are log 3's (DESIGN CHOICE, unsafe). -/
def State.reset : State where
  phase := phaseIdle
  cache := Vector.replicate 64 Pixel.cleared
  prev := none
  run := 0
  fragLen := 0
  frag0 := 0
  frag1 := 0
  out := []
  refusalMark := false
  refusalReason := none
  port := []
  statusData := none
  delivered := 0
  received := []
  draws := 0

/-- What the ports offer the next step. -/
inductive Fetched where
  /-- No transfer is pending (R203). -/
  | idle
  /-- The output buffer is full: the command port is held (R178, R194). -/
  | held
  /-- An instruction, and the state with its transfer taken off the port. -/
  | run (i : Instr) (s : State)
  /-- A transfer that is no instruction, or an illegal word, already carried out. -/
  | acted (s : State)
  /-- The model's own item port holds no stream item. -/
  | stop (r : Refusal)
deriving DecidableEq, Repr

end Sys2Proof.Machine
end

