-- ==== Sys2Proof/Machine/Ops.lean ====
section
/-! DEFINITION. The named operations over the state (spec 00 R10; 20 R51; 60 R190 to R198). The block has no
exception, no trap and no return from one (R190, R198): its only abnormal outcomes are the fault check and the
refusal below. It has no addressable memory (R50; log 19): the cache is the one storage read and written by index. -/

namespace Sys2Proof.Machine

/-- `CacheRead(i)` (R10, R51). -/
def State.cacheRead (s : State) (i : BitVec 6) : Pixel := s.cache[i.toNat]'i.isLt

/-- `CacheWrite(i, p)` (R10, R51). -/
def State.cacheWrite (s : State) (i : BitVec 6) (p : Pixel) : State :=
  { s with cache := s.cache.set i.toNat p i.isLt }

/-- START's clear: `CacheWrite(i, (0,0,0,0))` for every i (R171). -/
def State.clearCache (s : State) : State := { s with cache := Vector.replicate 64 Pixel.cleared }

/-- `Emit(b)` (R10): append one byte to `out`. -/
def State.emit (s : State) (b : Byte) : State := { s with out := s.out ++ [b] }

/-- `EmitAll` (R10): `Emit` of each byte in order (Laws: emitAll_eq_foldl_emit). -/
def State.emitAll (s : State) (bs : List Byte) : State := { s with out := s.out ++ bs }

/-- The byte-stream writer (R90): the bytes the packer builds for one stream item, appended to `out`. -/
def State.emitItem (s : State) (c : Config) (i : Instr) : State := s.emitAll (itemBytes c i)

/-- `S.prev <- v`. -/
def State.setPrev (s : State) (v : Option Pixel) : State := { s with prev := v }

/-- `S.run <- v`. -/
def State.setRun (s : State) (v : BitVec 6) : State := { s with run := v }

/-- `S.frag_len <- v`. -/
def State.setFragLen (s : State) (v : BitVec 2) : State := { s with fragLen := v }

/-- `S.phase <- v`. -/
def State.setPhase (s : State) (v : BitVec 2) : State := { s with phase := v }

/-- `S.frag[i] <- x` for i = 0, and for every other i the second byte. -/
def State.setFrag (s : State) (i : BitVec 2) (x : Byte) : State :=
  if i = 0 then { s with frag0 := x } else { s with frag1 := x }

/-- `S.out <- []`: a new encode's stream begins (R26, R171), and its offsets count from 0 again (R178). -/
def State.emptyOut (s : State) : State := { s with out := [], delivered := 0 }

/-- START leaves `frag[0..1]` unspecified (R20, R210): both become free values (log 4). -/
def State.drawFrag (s : State) : State :=
  { s with frag0 := Config.freeByte s.draws, frag1 := Config.freeByte (s.draws + 1), draws := s.draws + 2 }

/-- Which fault a state is in, if any (R193). Where several registers are illegal the spec names no order; the
model takes R190's (log 9). -/
def State.faultOf (s : State) : Option Fault :=
  if s.phase = 3 then some .badPhase
  else if s.run = 63 then some .badRun
  else if s.fragLen = 3 then some .badFrag
  else none

/-- A faulted state takes precedence over everything else (R193, R197). -/
def State.guarded (s : State) (k : Host.Outcome State Fault Refusal) : Host.Outcome State Fault Refusal :=
  match s.faultOf with
  | some f => .fault f
  | none => k

/-- A refused command (R192): the mark is set, its reason recorded, nothing else changes. -/
def State.refuse (s : State) (r : Refusal) : State :=
  { s with refusalMark := true, refusalReason := some r }

/-- What a STATUS read hands the host (R176): the block's own state is untouched. -/
def State.returnStatus (s : State) (v : Word32) : State := { s with statusData := some v }

end Sys2Proof.Machine
end

