-- ==== Sys2Proof/Machine/Operands.lean ====
section
/-! DEFINITION. The operands of the engine's operations: pixels, the hash, the reference pixel, the channel deltas
and their biased fields (spec 41 R111; 42 R122, R129, R130, R133, R139), and the pixel a stream item stands for. -/

namespace Sys2Proof.Machine

/-- `RUN_MAX` (R6). -/
def runMax : BitVec 6 := 62

/-- `ALPHA_SYNTH` (R6, R111). -/
def alphaSynth : Byte := 255

/-- A pixel of the input: alpha is synthesized (R54, R111). -/
def opaquePixel (r g b : Byte) : Pixel := ⟨r, g, b, alphaSynth⟩

/-- The hash (R122): exact integer arithmetic, then mod 64. -/
def pixelHash (p : Pixel) : BitVec 6 :=
  BitVec.ofNat 6 ((p.r.toNat * 3 + p.g.toNat * 5 + p.b.toNat * 7 + p.a.toNat * 11) % 64)

/-- `DeltaRef()` (R139). -/
def deltaRef (c : Config) (s : State) : Option Pixel :=
  match s.prev with
  | some q => some q
  | none =>
    match c.prevInitPolicy with
    | .decline => none
    | .std => some (opaquePixel 0 0 0)

/-- A channel delta, current minus previous, wrapped to 8 bits (R129). -/
def delta8 (cur ref : Byte) : Byte := cur - ref

/-- DIFF's biased wrapped delta, bias `DIFF_BIAS` = 2 (R130). -/
def diffField (cur ref : Byte) : Byte := delta8 cur ref + 2

/-- LUMA's green delta, signed and unbiased (R133). -/
def lumaGreen (p q : Pixel) : Int := sext8 (delta8 p.g q.g)

/-- LUMA's red or blue term: the channel's delta minus the green delta, plus bias 8, mod 256 (R133). -/
def lumaTerm (cur ref : Byte) (dg8 : Byte) : Byte := delta8 cur ref - dg8 + 8

/-- The field of the final flush: `run - FINAL_RUN_BIAS` (R84, R89). -/
def finalField (c : Config) (run : BitVec 6) : BitVec 6 := run - BitVec.ofNat 6 c.finalRunBias.val

/-- The field of the interior flush: `run - 1` (R83, R89). -/
def interiorField (run : BitVec 6) : BitVec 6 := run - 1

/-! ## The pixel a stream item stands for (log 10)

An item row names an operation, whose operand is the current pixel; an item word holds the packed fields. Against
the state, the fields determine the pixel: R80, R81, R82 and R85 solved for it. -/

/-- The pixel q plus the signed deltas of a DIFF item (R81). -/
def diffPixel (q : Pixel) (rt gt bt : BitVec 2) : Pixel :=
  opaquePixel (q.r + rt.setWidth 8 - 2) (q.g + gt.setWidth 8 - 2) (q.b + bt.setWidth 8 - 2)

/-- The pixel q plus the green-relative deltas of a LUMA item (R82). -/
def lumaPixel (q : Pixel) (g : BitVec 6) (rt bt : BitVec 4) : Pixel :=
  let dg : Byte := g.setWidth 8 - 32
  opaquePixel (q.r + dg + rt.setWidth 8 - 8) (q.g + dg) (q.b + dg + bt.setWidth 8 - 8)

end Sys2Proof.Machine
end

