-- ==== Sys2Proof/Machine/Flags.lean ====
section
/-! DEFINITION. The block has no flags and no condition codes (spec 10 R28). This file holds its status word (R27,
R176) and the conditions its encoders test (42 R124, R127, R130, R134). -/

namespace Sys2Proof.Machine

/-- STATUS (R27, R176): PHASE in bits 1:0, the other bits read as zero. -/
def State.status (s : State) : Word32 := s.phase.setWidth 32

/-- The condition of the interior flush (R124), for a previous pixel q. -/
def flushDue (s : State) (p q : Pixel) : Bool := (p ≠ q || s.run = runMax) && s.run ≠ 0

/-- The matcher (R52, R127): one slot, exact equality. -/
def indexHit (s : State) (p : Pixel) : Bool := s.cacheRead (pixelHash p) = p

/-- DIFF's condition: all three biased deltas in [0,3] (R130). -/
def diffFits (p q : Pixel) : Bool :=
  diffField p.r q.r ≤ 3 && diffField p.g q.g ≤ 3 && diffField p.b q.b ≤ 3

/-- LUMA's condition (R134). -/
def lumaFits (p q : Pixel) : Bool :=
  let dg8 := delta8 p.g q.g
  (-32 ≤ lumaGreen p q && lumaGreen p q ≤ 31) && lumaTerm p.r q.r dg8 ≤ 15 && lumaTerm p.b q.b dg8 ≤ 15

end Sys2Proof.Machine
end

