-- ==== Sys2Proof/Machine/Engine.lean ====
section
/-! DEFINITION. The operation-selection engine (spec 42 R120 to R143): the five encoders, the interior flush, the
post-pixel update and the chain. Each encoder answers whether it consumed the pixel, and the state. -/

namespace Sys2Proof.Machine

/-- The interior flush of a pending run (R121, R124). -/
def interiorFlush (c : Config) (s : State) : State :=
  (s.emitItem c (.runInterior (interiorField s.run))).setRun 0

/-- `OpRun(p)` (R121, R124, R125, R126). -/
def opRun (c : Config) (p : Pixel) (s : State) : Bool × State :=
  match s.prev with
  | none => (false, s)
  | some q =>
    let s1 := if flushDue s p q then interiorFlush c s else s
    if p = q then (true, s1.setRun (s1.run + 1)) else (false, s1)

/-- `OpIndex(p)` (R127). -/
def opIndex (c : Config) (p : Pixel) (s : State) : Bool × State :=
  if indexHit s p then (true, s.emitItem c (.index (pixelHash p))) else (false, s)

/-- The DIFF item of a pixel against its reference (R81, R89). -/
def diffItem (p q : Pixel) : Instr :=
  .diff ((diffField p.r q.r).setWidth 2) ((diffField p.g q.g).setWidth 2) ((diffField p.b q.b).setWidth 2)

/-- `OpDiff(p)` (R130). -/
def opDiff (c : Config) (p : Pixel) (s : State) : Bool × State :=
  match deltaRef c s with
  | none => (false, s)
  | some q => if diffFits p q then (true, s.emitItem c (diffItem p q)) else (false, s)

/-- The LUMA item of a pixel against its reference (R82, R89): the green field is `dg + 32`. -/
def lumaItem (p q : Pixel) : Instr :=
  let dg8 := delta8 p.g q.g
  .luma (BitVec.ofInt 6 (lumaGreen p q + 32)) ((lumaTerm p.r q.r dg8).setWidth 4) ((lumaTerm p.b q.b dg8).setWidth 4)

/-- `OpLuma(p)` (R134). -/
def opLuma (c : Config) (p : Pixel) (s : State) : Bool × State :=
  match deltaRef c s with
  | none => (false, s)
  | some q => if lumaFits p q then (true, s.emitItem c (lumaItem p q)) else (false, s)

/-- `OpRgb(p)` (R137). -/
def opRgb (c : Config) (p : Pixel) (s : State) : Bool × State := (true, s.emitItem c (.rgb p.r p.g p.b))

/-- `Update(p)` (R140). -/
def update (p : Pixel) (s : State) : State := (s.cacheWrite (pixelHash p) p).setPrev (some p)

/-- The next encoder of the chain runs only where the pixel is not consumed yet (R120). -/
def orElseTry (r : Bool × State) (next : State → Bool × State) : Bool × State :=
  if r.1 then r else next r.2

/-- The fixed priority chain RUN, INDEX, DIFF, LUMA, RGB (R120, R141). -/
def selectOperation (c : Config) (p : Pixel) (s : State) : Bool × State :=
  orElseTry (orElseTry (orElseTry (orElseTry (opRun c p s) (opIndex c p)) (opDiff c p)) (opLuma c p)) (opRgb c p)

/-- `EncodePixel(p)` (R120): the chain, then the update, which always runs. -/
def encodePixel (c : Config) (p : Pixel) (s : State) : State := update p (selectOperation c p s).2

end Sys2Proof.Machine
end

