-- ==== Sys2Proof/Machine/Stream.lean ====
section
/-! DEFINITION. What the host commands run: the header emitter (spec 40 R100), the pixel input (41 R110, R112), the
final flush and the terminator (43 R160, R161), and the whole steps of START and END (44 R171, R175). -/

namespace Sys2Proof.Machine

/-- `EMIT_HEADER(W, H)` (R100). -/
def emitHeader (c : Config) (w h : Word32) (s : State) : State := s.emitItem c (.header w h)

/-- `ACCEPT_BYTE(x)` (R110). -/
def acceptByte (c : Config) (x : Byte) (s : State) : State :=
  if s.fragLen < 2 then (s.setFrag s.fragLen x).setFragLen (s.fragLen + 1)
  else encodePixel c (opaquePixel s.frag0 s.frag1 x) (s.setFragLen 0)

/-- `DROP_FRAGMENT()` (R112). -/
def dropFragment (s : State) : State := s.setFragLen 0

/-- `FinalFlush()` (R160). -/
def finalFlush (c : Config) (s : State) : State :=
  if s.run ≠ 0 then (s.emitItem c (.runFinal (finalField c s.run))).setRun 0 else s

/-- `EmitTerminator()` (R161). -/
def emitTerminator (c : Config) (s : State) : State := s.emitItem c .terminator

/-- START's step once it is accepted (R171). -/
def startEncode (c : Config) (w h : Word32) (s : State) : State :=
  (emitHeader c w h ((((s.clearCache.setPrev none).setRun 0).setFragLen 0).drawFrag.emptyOut)).setPhase phaseStream

/-- END's step once it is accepted (R164, R175). -/
def finishEncode (c : Config) (s : State) : State :=
  (emitTerminator c (finalFlush c (dropFragment s))).setPhase phaseDone

end Sys2Proof.Machine
end

