-- ==== Sys2Proof/Machine/Commands.lean ====
section
/-! DEFINITION. The meanings of the host commands and of the status read (spec 44 R171 to R176, R179). Every one
checks for a faulted state first, then the phase (60 R197). -/

namespace Sys2Proof.Machine

/-- NOP (R172): no effect, in any phase. -/
def execNop (s : State) : Host.Outcome State Fault Refusal := s.guarded (.next s)

/-- START (R171): refused in STREAM. -/
def execStart (w h : Word32) (s : State) : Host.Outcome State Fault Refusal :=
  s.guarded (if s.phase = phaseStream then .refused .startWhileStreaming
    else .next (startEncode blockConfig w h s))

/-- DATA (R173): refused outside STREAM. -/
def execData (x : Byte) (s : State) : Host.Outcome State Fault Refusal :=
  s.guarded (if s.phase ≠ phaseStream then .refused .dataOutsideStream
    else .next (acceptByte blockConfig x s))

/-- END (R175): refused outside STREAM. -/
def execEnd (s : State) : Host.Outcome State Fault Refusal :=
  s.guarded (if s.phase ≠ phaseStream then .refused .endOutsideStream
    else .next (finishEncode blockConfig s))

/-- STATUS_READ (R176): returns STATUS, in every phase. -/
def execStatusRead (s : State) : Host.Outcome State Fault Refusal := s.guarded (.next (s.returnStatus s.status))

end Sys2Proof.Machine
end

