-- ==== Sys2Proof/Machine/Items.lean ====
section
/-! DEFINITION. The meanings of the stream items (spec 40 R100; 42 R124, R127, R130, R134, R137; 43 R160, R161; 30 R88).
An item runs its own operation on the pixel that the item stands for (Operands.lean; log 10): where the operation's
condition holds the block emits exactly this item, with the register effects its rule gives; where it does not, the
operation declines, and nothing is emitted or changed. The operations have no phase check of their own. -/

namespace Sys2Proof.Machine

/-- INDEX (R127). The pixel is the one slot `idx` holds, if it is a pixel of the input (R111) that hashes there. -/
def execIndex (idx : BitVec 6) (s : State) : Host.Outcome State Fault Refusal :=
  let p := s.cacheRead idx
  s.guarded (.next (if pixelHash p = idx ∧ p.a = alphaSynth then (opIndex blockConfig p s).2 else s))

/-- DIFF (R130). The pixel is the reference plus the item's deltas; without a reference DIFF declines (R139). -/
def execDiff (rt gt bt : BitVec 2) (s : State) : Host.Outcome State Fault Refusal :=
  s.guarded (.next (match deltaRef blockConfig s with
    | none => s
    | some q => (opDiff blockConfig (diffPixel q rt gt bt) s).2))

/-- LUMA (R134). The pixel is the reference plus the item's deltas; without a reference LUMA declines (R139). -/
def execLuma (g : BitVec 6) (rt bt : BitVec 4) (s : State) : Host.Outcome State Fault Refusal :=
  s.guarded (.next (match deltaRef blockConfig s with
    | none => s
    | some q => (opLuma blockConfig (lumaPixel q g rt bt) s).2))

/-- RUN, interior form (R124): due where a previous pixel exists, a run is pending and the field is `run - 1`. -/
def execRunInterior (n : BitVec 6) (s : State) : Host.Outcome State Fault Refusal :=
  s.guarded (.next (if s.prev.isSome ∧ s.run ≠ 0 ∧ n = interiorField s.run then interiorFlush blockConfig s else s))

/-- RUN, final form (R160): due where a run is pending and the field is `run - FINAL_RUN_BIAS`. -/
def execRunFinal (n : BitVec 6) (s : State) : Host.Outcome State Fault Refusal :=
  s.guarded (.next (if n = finalField blockConfig s.run then finalFlush blockConfig s else s))

/-- RGB (R137): always succeeds. -/
def execRgb (r g b : Byte) (s : State) : Host.Outcome State Fault Refusal :=
  s.guarded (.next (opRgb blockConfig (opaquePixel r g b) s).2)

/-- RGBA_RESERVED (R88): the block never emits it and the spec gives it no effect. -/
def execRgbaReserved (s : State) : Host.Outcome State Fault Refusal := s.guarded (.refused .rgbaReserved)

/-- HEADER (R100). -/
def execHeader (w h : Word32) (s : State) : Host.Outcome State Fault Refusal :=
  s.guarded (.next (emitHeader blockConfig w h s))

/-- TERMINATOR (R161). -/
def execTerminator (s : State) : Host.Outcome State Fault Refusal := s.guarded (.next (emitTerminator blockConfig s))

end Sys2Proof.Machine
end

