-- ==== Sys2Proof/Machine/Dispatch.lean ====
section
/-! DEFINITION. exec: one arm per instruction. -/

namespace Sys2Proof.Machine

def exec (i : Instr) (s : State) : Host.Outcome State Fault Refusal :=
  match i with
  | .nop => Sys2Proof.Machine.execNop s
  | .start w h => Sys2Proof.Machine.execStart w h s
  | .data x => Sys2Proof.Machine.execData x s
  | .endEncode => Sys2Proof.Machine.execEnd s
  | .statusRead => Sys2Proof.Machine.execStatusRead s
  | .index idx => Sys2Proof.Machine.execIndex idx s
  | .diff rt gt bt => Sys2Proof.Machine.execDiff rt gt bt s
  | .luma g rt bt => Sys2Proof.Machine.execLuma g rt bt s
  | .runInterior n => Sys2Proof.Machine.execRunInterior n s
  | .runFinal n => Sys2Proof.Machine.execRunFinal n s
  | .rgb r g b => Sys2Proof.Machine.execRgb r g b s
  | .rgbaReserved => Sys2Proof.Machine.execRgbaReserved s
  | .header w h => Sys2Proof.Machine.execHeader w h s
  | .terminator => Sys2Proof.Machine.execTerminator s

end Sys2Proof.Machine
end

