-- ==== Sys2Proof/Machine/Ports.lean ====
section
/-! DEFINITION. The three ports (spec 44 R170, R178, R180; 60 R192, R194, R197; 70 R210, R211): fetching the next
transfer, holding the command port, delivering output bytes, reset, and recording a refusal. -/

namespace Sys2Proof.Machine

/-- The host takes the next byte of `out` (R178): in offset order, each exactly once. With no byte waiting nothing
is transferred (log 14). -/
def deliver (s : State) : State :=
  match s.out[s.delivered]? with
  | some b => { s with delivered := s.delivered + 1, received := s.received ++ [b] }
  | none => s

/-- Power-on reset of a running block (R210, R211): every field of the block as after reset (log 16); what the host
has pending and has received is the host's, and is not taken back. -/
def powerOnReset (s : State) : State :=
  { State.reset with
    port := s.port, statusData := s.statusData, received := s.received, draws := s.draws }

/-- The most bytes a host command can emit (the table of R178); `none` for what does not come by the command port:
a STATUS read is allowed at any time (R176, R180), and stream items are the model's own transfers (log 11). -/
def maxEmit : Instr → Option Nat
  | .nop => some 0
  | .start _ _ => some 14
  | .data _ => some 5
  | .endEncode => some 9
  | .statusRead => none
  | .index _ => none
  | .diff _ _ _ => none
  | .luma _ _ _ => none
  | .runInterior _ => none
  | .runFinal _ => none
  | .rgb _ _ _ => none
  | .rgbaReserved => none
  | .header _ _ => none
  | .terminator => none

/-- The command port is held where a finite output buffer holds undelivered bytes and has no room for all that the
host command can emit (R178, R194; log 17). Never so where `out` is unbounded, and the other ports never are. -/
def held (c : Config) (i : Instr) (s : State) : Bool :=
  match c.outputCapacity, maxEmit i with
  | some room, some n => s.delivered < s.out.length && room < s.out.length - s.delivered + n
  | some _, none => false
  | none, _ => false

/-- What becomes of a transfer that decodes to no instruction. An illegal command word is refused (R72, R192). -/
def rejected (t : Transfer) (s : State) : Fetched :=
  match t with
  | .command _ => .acted (s.refuse .illegalWord)
  | .takeByte => .acted (deliver s)
  | .reset => .acted (powerOnReset s)
  | .statusRead => .stop .illegalItem
  | .item _ _ => .stop .illegalItem

/-- The next transfer: decoded first (R197), then held or handed on. DESIGN CHOICE (log 23), since R197 names no HOLD:
an illegal word is refused before any hold, and a legal one is held before its phase is checked. Unsafe with a finite
buffer only. -/
def fetch (c : Config) (s : State) : Fetched :=
  match s.port with
  | [] => .idle
  | t :: rest =>
    match decode c t with
    | .ok i => if held c i s then .held else .run i { s with port := rest }
    | .error _ => rejected t { s with port := rest }

/-- How a step ends after an instruction: a refusal of R192 is recorded in the state the command found (log 7);
every other outcome stands. -/
def settle (s : State) : Host.Outcome State Fault Refusal → Host.Outcome State Fault Refusal
  | .refused .startWhileStreaming => .next (s.refuse .startWhileStreaming)
  | .refused .dataOutsideStream => .next (s.refuse .dataOutsideStream)
  | .refused .endOutsideStream => .next (s.refuse .endOutsideStream)
  | o => o

/-- `PIX r, g, b` (R183). -/
def pix (c : Config) (r g b : Byte) : List Transfer := [encode c (.data r), encode c (.data g), encode c (.data b)]

/-- `PIXN n, r, g, b` (R183). -/
def pixN (c : Config) (n : Nat) (r g b : Byte) : List Transfer := (List.replicate n (pix c r g b)).flatten

/-- `IMAGE W, H, b0, ..., bk` (R183), which is also `encode_simple` (R181). -/
def image (c : Config) (w h : Word32) (bs : List Byte) : List Transfer :=
  encode c (.start w h) :: (bs.map fun b => encode c (.data b)) ++ [encode c .endEncode]

end Sys2Proof.Machine
end

