-- ==== Sys2Proof/Machine/Step.lean ====
section
/-! DEFINITION. One step: a faulted state first (spec 60 R193, R197), then the next transfer of the ports. -/

namespace Sys2Proof.Machine

/-- One step of the block and its host. With no transfer pending the block keeps its state (R203); where the
command port is held, the host's draining is the step (R194). -/
def step (s : State) : Host.Outcome State Fault Refusal :=
  s.guarded (match fetch blockConfig s with
    | .idle => .next s
    | .held => .next (deliver s)
    | .acted t => .next t
    | .stop r => .refused r
    | .run i t => settle t (exec i t))

/-- The state with an opcode-table word as the port's next transfer (log 20). -/
def State.withFetchWord (s : State) (nbits w : Nat) : State :=
  match tableTransfer blockConfig nbits w with
  | some t => { s with port := t :: s.port }
  | none => s

end Sys2Proof.Machine
end

