-- ==== Sys2Proof/Safety.lean ====
section
/-! DEFINITION. The terms claims are stated in: legal states, the invariant of spec 10 R30, the observation of 44 R177,
what two states share that the spec lets a program see (10 R31, 00 R15), and a reference encoder over a list of pixels,
written in integer arithmetic from 30 R80 to R84, 42 R120 to R143 and 43 R160, with no cache and no registers. -/

namespace Sys2Proof.Machine

/-- A state no register of which is outside its legal range (R193). -/
abbrev State.Legal (s : State) : Prop := s.faultOf = none

/-- A slot of the cache as R30 item 6 has it: the cleared value, or a pixel of the input that hashes to the slot. -/
def slotOk (i : BitVec 6) (p : Pixel) : Prop := p = Pixel.cleared ∨ (p.a = alphaSynth ∧ pixelHash p = i)

/-- R30 items 2, 4, 5 and 6, which hold while `phase` = STREAM (item 6 without the history it speaks of). -/
structure State.StreamInv (s : State) : Prop where
  runHasPrev : s.run ≠ 0 → s.prev.isSome
  prevCached : ∀ p, s.prev = some p → s.cacheRead (pixelHash p) = p ∧ p.a = alphaSynth
  headerFirst : ∃ w h, headerBytes w h <+: s.out
  slots : ∀ i, slotOk i (s.cacheRead i)

/-- The invariant of every step: the registers legal (R30 items 1 and 3, R21), the output port behind `out` and its
bytes the last ones received (R178), and R30 in STREAM. -/
structure State.Inv (s : State) : Prop where
  legal : s.Legal
  deliveredLe : s.delivered ≤ s.out.length
  deliveredLast : s.out.take s.delivered <:+ s.received
  stream : s.phase = phaseStream → s.StreamInv

/-- The observation (R15, R177): `out` at DONE, in a run that refused nothing (R192). A faulted state is never final
(R193), so it has none. -/
def State.result (s : State) : Option (List Byte) :=
  if s.faultOf = none ∧ s.phase = phaseDone ∧ s.refusalMark = false then some s.out else none

/-- A transfer that a host of the hardware makes, as against the model's own item port (log 11). -/
def fromHost : Transfer → Bool
  | .command _ => true
  | .statusRead => true
  | .reset => true
  | .takeByte => true
  | .item _ _ => false

/-- No byte waits at the output port. In IDLE `out` is unspecified (R31), and what a host would take there with it. -/
def State.nothingWaits (s : State) : Prop := s.out.length ≤ s.delivered

/-- What two states have in common that a later step may read (R31, R164, R210): the registers of the block count only
in STREAM, `frag` only below `frag_len`, `out` only in STREAM and DONE. -/
structure State.Agree (s t : State) : Prop where
  phase : s.phase = t.phase
  port : s.port = t.port
  mark : s.refusalMark = t.refusalMark ∧ s.refusalReason = t.refusalReason
  host : s.statusData = t.statusData ∧ s.received = t.received
  stream : s.phase = phaseStream → s.cache = t.cache ∧ s.prev = t.prev ∧ s.run = t.run ∧ s.fragLen = t.fragLen
  frag : s.phase = phaseStream → (1 ≤ s.fragLen → s.frag0 = t.frag0) ∧ (2 ≤ s.fragLen → s.frag1 = t.frag1)
  out : s.phase ≠ phaseIdle → s.out = t.out ∧ s.delivered = t.delivered

/-- The two parameters the spec leaves open (R33, D5, D6), with the block's own tags. -/
def withParameters (pol : PrevInitPolicy) (bias : Fin 2) : Config :=
  { blockConfig with prevInitPolicy := pol, finalRunBias := bias }

/-! ## The reference encoder -/

/-- The byte of an integer. -/
def byteOf (n : Int) : Byte := BitVec.ofInt 8 n

/-- The header in integer arithmetic: magic, W and H big-endian, 3, 1 (R53, R86). -/
def refHeader (w h : Word32) : List Byte :=
  [113, 111, 105, 102,
    byteOf (w.toNat / 2 ^ 24), byteOf (w.toNat / 2 ^ 16), byteOf (w.toNat / 2 ^ 8), byteOf w.toNat,
    byteOf (h.toNat / 2 ^ 24), byteOf (h.toNat / 2 ^ 16), byteOf (h.toNat / 2 ^ 8), byteOf h.toNat, 3, 1]

/-- A signed channel delta in [-128,127] (R129), without bit vectors. -/
def signedDelta (cur ref : Byte) : Int :=
  let d : Int := cur.toNat - ref.toNat
  if 128 ≤ d then d - 256 else if d < -128 then d + 256 else d

/-- The DIFF byte, where the three deltas are in [-2,1] (R81, R131). -/
def refDiff (p q : Pixel) : Option (List Byte) :=
  let dr := signedDelta p.r q.r
  let dg := signedDelta p.g q.g
  let db := signedDelta p.b q.b
  if (-2 ≤ dr ∧ dr ≤ 1) ∧ (-2 ≤ dg ∧ dg ≤ 1) ∧ -2 ≤ db ∧ db ≤ 1 then
    some [byteOf (64 + 16 * (dr + 2) + 4 * (dg + 2) + (db + 2))]
  else none

/-- The LUMA bytes, where the deltas are in the ranges of R135 (R82). -/
def refLuma (p q : Pixel) : Option (List Byte) :=
  let dr := signedDelta p.r q.r
  let dg := signedDelta p.g q.g
  let db := signedDelta p.b q.b
  if (-32 ≤ dg ∧ dg ≤ 31) ∧ (-8 ≤ dr - dg ∧ dr - dg ≤ 7) ∧ -8 ≤ db - dg ∧ db - dg ≤ 7 then
    some [byteOf (128 + (dg + 32)), byteOf (16 * (dr - dg + 8) + (db - dg + 8))]
  else none

/-- The bytes of a pixel that RUN did not consume: the first of INDEX, DIFF, LUMA, RGB that accepts (R141, R143). -/
def refItem (hit : Bool) (ref : Option Pixel) (p : Pixel) : List Byte :=
  if hit then [byteOf (pixelHash p).toNat]
  else (ref.bind (refDiff p)).getD ((ref.bind (refLuma p)).getD [254, p.r, p.g, p.b])

/-- The reference pixel of the deltas (R139). -/
def refReference (pol : PrevInitPolicy) : Option Pixel → Option Pixel
  | some q => some q
  | none => if pol = .std then some ⟨0, 0, 0, 255⟩ else none

/-- The interior flush byte, if one is due (R124). -/
def refFlush (prev : Option Pixel) (run : Nat) (p : Pixel) : List Byte :=
  if prev ≠ none ∧ run ≠ 0 ∧ (prev ≠ some p ∨ run = 62) then [byteOf (192 + (run - 1))] else []

/-- All bytes of one pixel step (R143). -/
def refPixel (pol : PrevInitPolicy) (prev : Option Pixel) (run : Nat) (hit : Bool) (p : Pixel) : List Byte :=
  refFlush prev run p ++ if prev = some p then [] else refItem hit (refReference pol prev) p

/-- The run counter after a pixel step (R124, R125). -/
def refRun (prev : Option Pixel) (run : Nat) (p : Pixel) : Nat :=
  if prev = some p then (if run = 62 then 1 else run + 1) else if prev = none then run else 0

/-- INDEX hits where the latest earlier pixel with the same hash is the pixel itself (R51, R128). -/
def refHit (earlier : List Pixel) (p : Pixel) : Bool := earlier.find? (fun q => pixelHash q = pixelHash p) = some p

/-- The operation stream of a list of pixels, given the earlier ones (latest first) and the run pending after them,
with the final flush (R58, R120, R160). -/
def refOps (pol : PrevInitPolicy) (bias : Nat) : List Pixel → Nat → List Pixel → List Byte
  | _, run, [] => if run = 0 then [] else [byteOf (192 + (run - bias))]
  | earlier, run, p :: ps =>
    refPixel pol earlier.head? run (refHit earlier p) p ++
      refOps pol bias (p :: earlier) (refRun earlier.head? run p) ps

/-- The pixels of an input (R54, R111): whole strides of three, a trailing fragment dropped (R112). -/
def pixelsOf : List Byte → List Pixel
  | r :: g :: b :: rest => opaquePixel r g b :: pixelsOf rest
  | _ => []

/-- The stream of one encode (R58). -/
def refStream (pol : PrevInitPolicy) (bias : Nat) (w h : Word32) (bs : List Byte) : List Byte :=
  refHeader w h ++ refOps pol bias [] 0 (pixelsOf bs) ++ [0, 0, 0, 0, 0, 0, 0, 1]

/-- Instructions one after the other, stopping at the first that does not answer a next state. -/
def execAll : List Instr → State → Host.Outcome State Fault Refusal
  | [], s => .next s
  | i :: is, s =>
    match exec i s with
    | .next t => execAll is t
    | .fault f => .fault f
    | .refused r => .refused r

end Sys2Proof.Machine
end

