-- ==== Sys2Proof/Certificates/Slice0/Obligations.lean ====
section
/-! DEFINITION. The statements about the block, from the numbered rules of the spec. A step of `exec` stands for one
accepted transfer; `step` for the machine with its ports. -/

open Sys2Proof Sys2Proof.Machine

/-! ## Reset and the invariant -/

/-- R31, R210: after reset the phase is IDLE, STATUS reads 0 and the refusal mark is clear. The other fields are the
model's choice (log 3) and nothing is said of them. -/
def Obligations.ResetIsIdleAndUnmarked : Prop :=
  State.reset.phase = 0 ∧ State.reset.status = 0 ∧ State.reset.refusalMark = false

/-- The invariant of R21, R30, R178 and R193 holds after reset. Its registers are legal, and its output port has
delivered nothing, by the reset values the model chose: R31 and R210 leave them unspecified (log 3, log 14). -/
def Obligations.ResetMeetsInvariant : Prop := State.reset.Inv

/-- R30 (with R21 and R178): every step keeps the invariant, from every state that has it. -/
def Obligations.StepKeepsInvariant : Prop :=
  ∀ s t : State, s.Inv → step s = .next t → t.Inv

/-! ## Steps and ports -/

/-- A step takes the next transfer off the port and runs the instruction it decodes to; a refusal of R192 is recorded
in the state the command found (log 7). -/
def Obligations.StepRunsDecodedInstruction : Prop :=
  ∀ (s : State) (t : Transfer) (rest : List Transfer) (i : Instr),
    s.Legal → s.port = t :: rest → decode blockConfig t = .ok i →
    (∀ u, exec i { s with port := rest } = .next u → step s = .next u) ∧
    (∀ f, exec i { s with port := rest } = .fault f → step s = .fault f) ∧
    (∀ r, exec i { s with port := rest } = .refused r →
      step s =
        if r = .startWhileStreaming ∨ r = .dataOutsideStream ∨ r = .endOutsideStream then
          .next { s with port := rest, refusalMark := true, refusalReason := some r }
        else .refused r)

/-- R203: with no transfer pending the block does nothing and keeps its state. -/
def Obligations.IdlePortKeepsState : Prop :=
  ∀ s : State, s.Legal → s.port = [] → step s = .next s

/-- R192: a refused command changes no field of the block; it is taken off the port and the mark is set with its reason
(log 7). -/
def Obligations.RefusedCommandOnlyMarks : Prop :=
  ∀ (s : State) (w : CmdWord) (rest : List Transfer), s.Legal → s.port = .command w :: rest →
    (∀ e, decode blockConfig (.command w) = .error e →
      step s = .next { s with port := rest, refusalMark := true, refusalReason := some .illegalWord }) ∧
    (∀ i r, decode blockConfig (.command w) = .ok i → exec i { s with port := rest } = .refused r →
      step s = .next { s with port := rest, refusalMark := true, refusalReason := some r })

/-- R192: once set, the refusal mark stays set through every step but a power-on reset (R210). -/
def Obligations.RefusalMarkIsSticky : Prop :=
  ∀ s t : State, s.refusalMark = true → s.port.head? ≠ some .reset → step s = .next t → t.refusalMark = true

/-- R197: a faulted state precedes everything; then the word's legality, whatever the phase; then the phase. That a
refusal is recorded and the run goes on is log 7; that a fault also takes resets, takes of a byte and STATUS reads is
log 9. -/
def Obligations.ChecksInOrder : Prop :=
  (∀ (s : State) (f : Fault), s.faultOf = some f → step s = .fault f) ∧
  (∀ (s : State) (op : BitVec 2) (arg : BitVec 64) (rest : List Transfer), s.Legal →
    s.port = .command (commandWord op arg) :: rest →
    (op = 0 ∧ arg ≠ 0 ∨ op = 2 ∧ 256 ≤ arg.toNat ∨ op = 3 ∧ arg ≠ 0) →
    step s = .next { s with port := rest, refusalMark := true, refusalReason := some .illegalWord }) ∧
  (∀ (s : State) (x : Byte) (rest : List Transfer), s.Legal → s.phase ≠ phaseStream →
    s.port = .command (commandWord 2 (x.setWidth 64)) :: rest →
    step s = .next { s with port := rest, refusalMark := true, refusalReason := some .dataOutsideStream }) ∧
  (∀ (s : State) (rest : List Transfer), s.Legal → s.phase ≠ phaseStream →
    s.port = .command (commandWord 3 0) :: rest →
    step s = .next { s with port := rest, refusalMark := true, refusalReason := some .endOutsideStream }) ∧
  (∀ (s : State) (arg : BitVec 64) (rest : List Transfer), s.Legal → s.phase = phaseStream →
    s.port = .command (commandWord 1 arg) :: rest →
    step s = .next { s with port := rest, refusalMark := true, refusalReason := some .startWhileStreaming })

/-- R193: a register outside its legal range makes every step, and every instruction, a fault with its reason. Which
reason comes first where several are illegal is the model's choice (log 9). -/
def Obligations.FaultedStateAlwaysFaults : Prop :=
  ∀ s : State,
    (s.phase = 3 → step s = .fault .badPhase ∧ ∀ i, exec i s = .fault .badPhase) ∧
    (s.phase ≠ 3 → s.run = 63 → step s = .fault .badRun ∧ ∀ i, exec i s = .fault .badRun) ∧
    (s.phase ≠ 3 → s.run ≠ 63 → s.fragLen = 3 → step s = .fault .badFrag ∧ ∀ i, exec i s = .fault .badFrag)

/-- R190: in a legal state nothing faults, whatever the instruction, its operands and the data. -/
def Obligations.LegalStateNeverFaults : Prop :=
  ∀ s : State, s.Legal → (∀ f, step s ≠ .fault f) ∧ ∀ i f, exec i s ≠ .fault f

/-- R178: a byte the host takes is the next byte of `out`; with none waiting nothing is transferred (log 14). -/
def Obligations.TakenByteIsNextOfOut : Prop :=
  ∀ (s : State) (rest : List Transfer), s.Legal → s.port = .takeByte :: rest →
    (∀ b, s.out[s.delivered]? = some b →
      step s = .next { s with port := rest, delivered := s.delivered + 1, received := s.received ++ [b] }) ∧
    (s.out.length ≤ s.delivered → step s = .next { s with port := rest })

/-- R210, R211: a power-on reset makes the phase IDLE and STATUS 0 and clears the mark; the partial `out` is no result;
the bytes already delivered are not taken back. -/
def Obligations.PowerOnResetAbandonsEncode : Prop :=
  ∀ (s : State) (rest : List Transfer), s.Legal → s.port = .reset :: rest →
    ∃ t, step s = .next t ∧ t.phase = 0 ∧ t.status = 0 ∧ t.refusalMark = false ∧ t.result = none ∧
      t.received = s.received ∧ t.port = rest

/-- R178, R194: with a finite output buffer that holds bytes, the command port is held while they and all that the
host command can emit (the table's number) do not fit; a command that is not held leaves no more bytes waiting than
the buffer has room for. What comes by another port is never held (R176, R180). A buffer with nothing waiting never
holds (log 17), and a command that its phase will refuse is held like any other (log 23). -/
def Obligations.FiniteBufferHoldsCommand : Prop :=
  ∀ (c : Config) (room : Nat) (s : State) (t : Transfer) (rest : List Transfer) (i : Instr),
    c.outputCapacity = some room → s.port = t :: rest → decode c t = .ok i → s.delivered < s.out.length →
    (∀ n, i = .nop ∧ n = 0 ∨ (∃ w h, i = .start w h) ∧ n = 14 ∨ (∃ x, i = .data x) ∧ n = 5 ∨ i = .endEncode ∧ n = 9 →
      (room < s.out.length - s.delivered + n → fetch c s = .held) ∧
      (s.out.length - s.delivered + n ≤ room → fetch c s = .run i { s with port := rest } ∧
        ∀ u, exec i { s with port := rest } = .next u → u.out.length - u.delivered ≤ room)) ∧
    ((∀ w, t ≠ .command w) → fetch c s = .run i { s with port := rest })

/-! ## Encodings -/

/-- Words written out from R71, R80 to R87 decode to the instructions they stand for. -/
def Obligations.WrittenWordsDecode : Prop :=
  decode blockConfig (.command 0x10000000100000001) = .ok (.start 1 1) ∧
  decode blockConfig (.command 0x2000000000000000A) = .ok (.data 10) ∧
  decode blockConfig (.command 0x20000000000000105) = .error .illegalWord ∧
  decode blockConfig (.item .operation [0x11]) = .ok (.index 17) ∧
  decode blockConfig (.item .operation [0x78]) = .ok (.diff 3 2 0) ∧
  decode blockConfig (.item .operation [0xA8, 0xA5]) = .ok (.luma 40 10 5) ∧
  decode blockConfig (.item .operation [0xFD]) = .ok (.runInterior 61) ∧
  decode blockConfig (.item .finalFlush [0xFE]) = .ok (.runFinal 62) ∧
  decode blockConfig (.item .operation [0xFE, 1, 2, 3]) = .ok (.rgb 1 2 3) ∧
  decode blockConfig (.item .operation [0xFF]) = .ok .rgbaReserved

/-- R73: the decoder of command words, in integer arithmetic, for every 66-bit word. -/
def Obligations.CommandWordsDecodeAsR73 : Prop :=
  ∀ w : CmdWord,
    decode blockConfig (.command w) =
      if w.toNat / 2 ^ 64 = 0 then
        if w.toNat % 2 ^ 64 = 0 then .ok .nop else .error .illegalWord
      else if w.toNat / 2 ^ 64 = 1 then
        .ok (.start (BitVec.ofNat 32 (w.toNat % 2 ^ 64 / 2 ^ 32)) (BitVec.ofNat 32 (w.toNat % 2 ^ 32)))
      else if w.toNat / 2 ^ 64 = 2 then
        if w.toNat % 2 ^ 64 < 256 then .ok (.data (BitVec.ofNat 8 (w.toNat % 256))) else .error .illegalWord
      else if w.toNat % 2 ^ 64 = 0 then .ok .endEncode
      else .error .illegalWord

/-- Decoding the encoding of a well-formed instruction gives it back, for every instruction and every operand: no bit
of an encoding is dropped. -/
def Obligations.DecodeEncodeAgree : Prop :=
  ∀ i : Instr, i.wf blockConfig = true → decode blockConfig (encode blockConfig i) = .ok i

/-- Every transfer that decodes is the encoding of what it decodes to, which is well formed: each word has one
meaning, and the reserved patterns have none. -/
def Obligations.DecodedTransferIsItsEncoding : Prop :=
  ∀ (t : Transfer) (i : Instr), decode blockConfig t = .ok i → i.wf blockConfig = true ∧ encode blockConfig i = t

/-! ## The host commands -/

/-- R172, R174: NOP has no effect in any phase; a nonzero payload is illegal. -/
def Obligations.NopHasNoEffect : Prop :=
  (∀ s : State, s.Legal → exec .nop s = .next s) ∧
  ∀ arg : BitVec 64, decode blockConfig (.command (commandWord 0 arg)) =
    if arg = 0 then .ok .nop else .error .illegalWord

/-- R171: START from IDLE or DONE clears the cache, `prev`, `run` and `frag_len`, makes `out` the header and the phase
STREAM; in STREAM it is refused. What `frag` holds after it is not said (log 4). That the output port then delivers
from offset 0 (`delivered` 0) is log 14. -/
def Obligations.StartBeginsEncode : Prop :=
  ∀ (s : State) (w h : Word32), s.Legal →
    (s.phase ≠ phaseStream → ∃ x y n, exec (.start w h) s = .next
      { s with
        cache := Vector.replicate 64 ⟨0, 0, 0, 0⟩, prev := none, run := 0, fragLen := 0, frag0 := x, frag1 := y,
        out := refHeader w h, phase := 1, delivered := 0, draws := n }) ∧
    (s.phase = phaseStream → exec (.start w h) s = .refused .startWhileStreaming)

/-- R173, R110, R111: DATA holds the first two bytes of a pixel and emits nothing; the third completes the pixel (r, g,
b, 255) and runs the pixel step; outside STREAM it is refused. -/
def Obligations.DataAcceptsByte : Prop :=
  ∀ (s : State) (x : Byte), s.Legal →
    (s.phase = phaseStream →
      (s.fragLen = 0 → exec (.data x) s = .next { s with frag0 := x, fragLen := 1 }) ∧
      (s.fragLen = 1 → exec (.data x) s = .next { s with frag1 := x, fragLen := 2 }) ∧
      (s.fragLen = 2 → exec (.data x) s =
        .next (encodePixel blockConfig ⟨s.frag0, s.frag1, x, 255⟩ { s with fragLen := 0 }))) ∧
    (s.phase ≠ phaseStream → exec (.data x) s = .refused .dataOutsideStream)

/-- R164, R175, R112, R160: END drops the held bytes, flushes a pending run with the unbiased counter (the default bias
0, log 2), emits the terminator and makes the phase DONE; outside STREAM it is refused, and a nonzero payload is
illegal. That `run` is 0 in DONE is R24's and R160's, against the vectors' end states (log 18). -/
def Obligations.EndFinishesEncode : Prop :=
  (∀ s : State, s.Legal →
    (s.phase = phaseStream → exec .endEncode s = .next
      { s with
        fragLen := 0, run := 0, phase := 2,
        out := s.out ++ (if s.run = 0 then [] else [byteOf (192 + s.run.toNat)]) ++ [0, 0, 0, 0, 0, 0, 0, 1] }) ∧
    (s.phase ≠ phaseStream → exec .endEncode s = .refused .endOutsideStream)) ∧
  ∀ arg : BitVec 64, decode blockConfig (.command (commandWord 3 arg)) =
    if arg = 0 then .ok .endEncode else .error .illegalWord

/-- R176, R27: a STATUS read returns the phase's code in bits 1:0 of a 32-bit word whose other bits are zero, in every
phase, and changes nothing of the block; the value returned is the host's (log 15). -/
def Obligations.StatusReadReturnsPhase : Prop :=
  ∀ s : State, s.Legal →
    exec .statusRead s = .next { s with statusData := some (BitVec.ofNat 32 s.phase.toNat) } ∧
    (s.phase = phaseIdle → s.status = 0) ∧ (s.phase = phaseStream → s.status = 1) ∧
    (s.phase = phaseDone → s.status = 2)

/-- R179: which command is accepted in which phase, what phase it leaves, and how it is refused in the others. -/
def Obligations.PhaseLegalityTable : Prop :=
  ∀ (s : State) (w h : Word32) (x : Byte), s.Legal →
    exec .nop s = .next s ∧
    (s.phase = phaseStream →
      exec (.start w h) s = .refused .startWhileStreaming ∧
      (∃ t, exec (.data x) s = .next t ∧ t.phase = phaseStream) ∧
      ∃ t, exec .endEncode s = .next t ∧ t.phase = phaseDone) ∧
    (s.phase = phaseIdle ∨ s.phase = phaseDone →
      (∃ t, exec (.start w h) s = .next t ∧ t.phase = phaseStream) ∧
      exec (.data x) s = .refused .dataOutsideStream ∧
      exec .endEncode s = .refused .endOutsideStream)

/-! ## The stream items -/

/-- R80, R127 (log 10): INDEX emits its byte where its slot holds a pixel of the input that hashes there. -/
def Obligations.IndexItemCompletes : Prop :=
  ∀ (s : State) (idx : BitVec 6), s.Legal →
    pixelHash (s.cacheRead idx) = idx → (s.cacheRead idx).a = 255 →
    exec (.index idx) s = .next { s with out := s.out ++ [byteOf idx.toNat] }

/-- R81, R130 (log 10): DIFF emits its byte where a previous pixel exists. -/
def Obligations.DiffItemCompletes : Prop :=
  ∀ (s : State) (q : Pixel) (rt gt bt : BitVec 2), s.Legal → s.prev = some q →
    exec (.diff rt gt bt) s =
      .next { s with out := s.out ++ [byteOf (64 + 16 * rt.toNat + 4 * gt.toNat + bt.toNat)] }

/-- R82, R134 (log 10): LUMA emits its two bytes, the tag byte first, where a previous pixel exists. -/
def Obligations.LumaItemCompletes : Prop :=
  ∀ (s : State) (q : Pixel) (g : BitVec 6) (rt bt : BitVec 4), s.Legal → s.prev = some q →
    exec (.luma g rt bt) s =
      .next { s with out := s.out ++ [byteOf (128 + g.toNat), byteOf (16 * rt.toNat + bt.toNat)] }

/-- R83, R124 (log 10): RUN in its interior form emits `TAG_RUN | (run - 1)` and clears the counter, where a previous
pixel exists and a run of n + 1 pixels is pending. -/
def Obligations.RunInteriorItemCompletes : Prop :=
  ∀ (s : State) (q : Pixel) (n : BitVec 6), s.Legal → s.prev = some q → s.run.toNat = n.toNat + 1 →
    exec (.runInterior n) s = .next { s with out := s.out ++ [byteOf (192 + n.toNat)], run := 0 }

/-- R84, R160 (log 10): RUN in its final form emits `TAG_RUN | run`, unbiased (the default bias 0, log 2), and clears
the counter, where a run of n pixels is pending. -/
def Obligations.RunFinalItemCompletes : Prop :=
  ∀ (s : State) (n : BitVec 6), s.Legal → s.run ≠ 0 → s.run = n →
    exec (.runFinal n) s = .next { s with out := s.out ++ [byteOf (192 + n.toNat)], run := 0 }

/-- R85, R137: RGB always emits its tag byte and the raw r, g, b. -/
def Obligations.RgbItemCompletes : Prop :=
  ∀ (s : State) (r g b : Byte), s.Legal →
    exec (.rgb r g b) s = .next { s with out := s.out ++ [0xFE, r, g, b] }

/-- R86, R100, R53: HEADER emits the magic, W and H big-endian, 3 and 1, for every W and H. -/
def Obligations.HeaderItemCompletes : Prop :=
  ∀ (s : State) (w h : Word32), s.Legal →
    exec (.header w h) s = .next { s with out := s.out ++ refHeader w h }

/-- R87, R161: TERMINATOR emits seven zero bytes and then 1. -/
def Obligations.TerminatorItemCompletes : Prop :=
  ∀ s : State, s.Legal →
    exec .terminator s = .next { s with out := s.out ++ [0, 0, 0, 0, 0, 0, 0, 1] }

/-- The block never emits the reserved byte 0xFF (R88) and the spec gives it no effect; that its instruction is the
refusal `rgbaReserved` is the model's choice (log 12). -/
def Obligations.RgbaReservedStops : Prop :=
  ∀ s : State, s.Legal → exec .rgbaReserved s = .refused .rgbaReserved

/-- R121, R127, R139, R160 (log 10): where an item's operation does not hold in the state, it declines: nothing is
emitted and nothing changes. That DIFF and LUMA decline without a previous pixel rests on DECLINE, and which final RUN
is due on bias 0, the defaults that `exec` uses (log 2). -/
def Obligations.ItemsDeclineWithoutEffect : Prop :=
  ∀ s : State, s.Legal →
    (∀ idx, pixelHash (s.cacheRead idx) ≠ idx ∨ (s.cacheRead idx).a ≠ 255 → exec (.index idx) s = .next s) ∧
    (∀ rt gt bt, s.prev = none → exec (.diff rt gt bt) s = .next s) ∧
    (∀ g rt bt, s.prev = none → exec (.luma g rt bt) s = .next s) ∧
    (∀ n, s.prev = none ∨ s.run = 0 ∨ s.run.toNat ≠ n.toNat + 1 → exec (.runInterior n) s = .next s) ∧
    (∀ n, s.run = 0 ∨ s.run ≠ n → exec (.runFinal n) s = .next s)

/-! ## Frames -/

/-- The frame of the stream items: an item appends to `out`; the two RUN forms may change the run counter; every other
register, every cache slot and the host's side stay. That an item run on its own makes no update of the cache and
`prev`, and completes in every phase, is the model's reading (log 10). -/
def Obligations.ItemFrame : Prop :=
  ∀ (i : Instr) (s t : State), exec i s = .next t →
    ((∃ idx, i = .index idx) ∨ (∃ rt gt bt, i = .diff rt gt bt) ∨ (∃ g rt bt, i = .luma g rt bt) ∨
      (∃ r g b, i = .rgb r g b) ∨ (∃ w h, i = .header w h) ∨ i = .terminator →
      s.out <+: t.out ∧ t = { s with out := t.out }) ∧
    ((∃ n, i = .runInterior n) ∨ (∃ n, i = .runFinal n) →
      s.out <+: t.out ∧ t = { s with out := t.out, run := t.run })

/-- The frame of the host commands and of the status read: each changes at most the fields its rule names, and DATA
without a third byte neither the cache nor `prev`, `run` nor `out`. -/
def Obligations.CommandFrame : Prop :=
  ∀ s t : State,
    (exec .nop s = .next t → t = s) ∧
    (exec .statusRead s = .next t → t = { s with statusData := t.statusData }) ∧
    (∀ w h, exec (.start w h) s = .next t →
      t = { s with
        cache := t.cache, prev := t.prev, run := t.run, fragLen := t.fragLen, frag0 := t.frag0, frag1 := t.frag1,
        out := t.out, phase := t.phase, delivered := t.delivered, draws := t.draws }) ∧
    (∀ x, exec (.data x) s = .next t →
      t = { s with
        cache := t.cache, prev := t.prev, run := t.run, fragLen := t.fragLen, frag0 := t.frag0, frag1 := t.frag1,
        out := t.out } ∧
      (s.fragLen ≠ 2 → t.cache = s.cache ∧ t.prev = s.prev ∧ t.run = s.run ∧ t.out = s.out) ∧
      (s.fragLen = 2 → t.frag0 = s.frag0 ∧ t.frag1 = s.frag1)) ∧
    (exec .endEncode s = .next t →
      t = { s with fragLen := t.fragLen, run := t.run, out := t.out, phase := t.phase })

/-- R22, R64: a cache slot changes only by START's clear and by the update of the pixel that DATA completes, which
writes the one slot the pixel hashes to. -/
def Obligations.CacheWrittenOnlyByStartAndUpdate : Prop :=
  ∀ (i : Instr) (s t : State) (k : BitVec 6), exec i s = .next t →
    (∀ w h, i ≠ .start w h) →
    (∀ x, i = .data x → s.fragLen = 2 → k ≠ pixelHash ⟨s.frag0, s.frag1, x, 255⟩) →
    t.cacheRead k = s.cacheRead k

/-- R21: only START and END write the phase. -/
def Obligations.OnlyStartAndEndWritePhase : Prop :=
  ∀ (i : Instr) (s t : State), exec i s = .next t →
    ((∀ w h, i ≠ .start w h) → i ≠ .endEncode → t.phase = s.phase) ∧
    ((∃ w h, i = .start w h) → t.phase = phaseStream) ∧ (i = .endEncode → t.phase = phaseDone)

/-- R26: `out` is append-only: every instruction but START keeps all of it as a prefix, and START makes it the header.
-/
def Obligations.OutputIsAppendOnly : Prop :=
  ∀ (i : Instr) (s t : State), exec i s = .next t →
    ((∀ w h, i ≠ .start w h) → s.out <+: t.out) ∧ ∀ w h, i = .start w h → t.out = refHeader w h

/-- The table of R178: START emits 14 bytes, DATA at most 5, END at most 9, NOP none. -/
def Obligations.EmissionBounds : Prop :=
  ∀ s t : State,
    (∀ w h, exec (.start w h) s = .next t → t.out.length = 14) ∧
    (∀ x, exec (.data x) s = .next t → t.out.length ≤ s.out.length + 5) ∧
    (exec .endEncode s = .next t → t.out.length ≤ s.out.length + 9) ∧
    (exec .nop s = .next t → t.out.length = s.out.length)

/-! ## The pixel step -/

/-- R143, R120 to R141: the bytes one pixel step emits, in integer arithmetic, for both values of the two parameters:
the interior flush if it is due, then the first of INDEX, DIFF, LUMA and RGB that accepts. -/
def Obligations.PixelStepEmitsTableBytes : Prop :=
  ∀ (pol : PrevInitPolicy) (bias : Fin 2) (s : State) (p : Pixel), s.Legal →
    (encodePixel (withParameters pol bias) p s).out =
      s.out ++ refPixel pol s.prev s.run.toNat (decide (s.cacheRead (pixelHash p) = p)) p

/-- R124, R125, R24: the run counter after a pixel step: one more on a continuation, 1 where the run had reached 62, 0
after a flush by a differing pixel; never above 62. -/
def Obligations.PixelStepRunCounter : Prop :=
  ∀ (pol : PrevInitPolicy) (bias : Fin 2) (s : State) (p : Pixel), s.Legal →
    (encodePixel (withParameters pol bias) p s).run.toNat = refRun s.prev s.run.toNat p ∧
    (encodePixel (withParameters pol bias) p s).run.toNat ≤ 62

/-- R140, whichever operation fired: the slot of the pixel's hash holds the pixel and `prev` is the pixel; every other
slot and every other register but `out` and `run` is unchanged. -/
def Obligations.UpdateFollowsEveryPixel : Prop :=
  ∀ (c : Config) (s : State) (p : Pixel),
    (encodePixel c p s).cacheRead (pixelHash p) = p ∧
    (∀ k, k ≠ pixelHash p → (encodePixel c p s).cacheRead k = s.cacheRead k) ∧
    encodePixel c p s =
      { s with
        out := (encodePixel c p s).out, run := (encodePixel c p s).run, cache := (encodePixel c p s).cache,
        prev := some p }

/-- R128: a pixel that comes back after one with another hash is an INDEX item, even where DIFF or LUMA fit; after one
with the same hash it has been evicted and is not. -/
def Obligations.RecurringPixelIsIndexUnlessEvicted : Prop :=
  ∀ (s : State) (p q : Pixel), s.Legal → p ≠ q →
    let t := encodePixel blockConfig q (encodePixel blockConfig p s)
    (pixelHash q ≠ pixelHash p → (encodePixel blockConfig p t).out = t.out ++ [byteOf (pixelHash p).toNat]) ∧
    (pixelHash q = pixelHash p → (encodePixel blockConfig p t).out = t.out ++ refItem false (some q) p)

/-- R88, R83, R84, R132, R142, with the defaults DECLINE and bias 0 (log 2): a pixel step appends a flush byte in
0xC0..0xFD, if one is due, and then the pixel's item, if it has one; the item begins neither with the reserved 0xFF nor
with 0x6A, and is not the all-zero LUMA (the second byte of LUMA and RGB's payload are no tags). The final flush emits
a byte in 0xC1..0xFE. -/
def Obligations.NoReservedPatternEmitted : Prop :=
  (∀ (s : State) (p : Pixel), s.Legal → p.a = 255 → (∀ q, s.prev = some q → q.a = 255) →
    let flush : List Byte :=
      if s.prev ≠ none ∧ s.run ≠ 0 ∧ (s.prev ≠ some p ∨ s.run = 62) then [byteOf (191 + s.run.toNat)] else []
    (∀ b ∈ flush, 0xC0 ≤ b ∧ b ≤ 0xFD) ∧
    ∃ item, (encodePixel blockConfig p s).out = s.out ++ flush ++ item ∧ (item = [] ↔ s.prev = some p) ∧
      item.head? ≠ some 0xFF ∧ item.head? ≠ some 0x6A ∧ item ≠ [0xA0, 0x88]) ∧
  ∀ s : State, s.Legal → s.run ≠ 0 →
    ∃ b, (finalFlush blockConfig s).out = s.out ++ [b] ∧ 0xC1 ≤ b ∧ b ≤ 0xFE

/-! ## Arithmetic -/

/-- R122: the hash is the exact sum, at most 6630, mod 64, and the sum may be taken in any width of at least 6 bits. -/
def Obligations.HashIsSumModSixtyFour : Prop :=
  ∀ p : Pixel,
    p.r.toNat * 3 + p.g.toNat * 5 + p.b.toNat * 7 + p.a.toNat * 11 ≤ 26 * 255 ∧
    (pixelHash p).toNat = (p.r.toNat * 3 + p.g.toNat * 5 + p.b.toNat * 7 + p.a.toNat * 11) % 64 ∧
    ∀ k, 6 ≤ k →
      (BitVec.ofNat k p.r.toNat * 3 + BitVec.ofNat k p.g.toNat * 5 + BitVec.ofNat k p.b.toNat * 7 +
        BitVec.ofNat k p.a.toNat * 11).toNat % 64 = (pixelHash p).toNat

/-- R123: the hash of a pixel of the input, with the rule's examples. -/
def Obligations.HashOfInputPixel : Prop :=
  (∀ r g b : Byte, (pixelHash ⟨r, g, b, 255⟩).toNat = (3 * r.toNat + 5 * g.toNat + 7 * b.toNat + 53) % 64) ∧
  pixelHash ⟨0, 0, 0, 255⟩ = 53 ∧ pixelHash ⟨255, 255, 255, 255⟩ = 38 ∧ pixelHash ⟨10, 20, 30, 255⟩ = 9 ∧
  pixelHash ⟨100, 100, 100, 255⟩ = 17

/-- R129: a channel delta is current minus previous mod 256, read as a signed number in [-128,127]. -/
def Obligations.ChannelDeltaIsWrappedAndSigned : Prop :=
  ∀ cur ref : Byte,
    ((delta8 cur ref).toNat : Int) = ((cur.toNat : Int) - ref.toNat) % 256 ∧
    sext8 (delta8 cur ref) = signedDelta cur ref ∧
    -128 ≤ signedDelta cur ref ∧ signedDelta cur ref ≤ 127

/-- R131: DIFF accepts exactly where the three signed deltas are in [-2,1], and then its fields are the deltas plus 2.
-/
def Obligations.DiffAcceptsSmallSignedDeltas : Prop :=
  ∀ p q : Pixel,
    (diffFits p q = true ↔
      (-2 ≤ signedDelta p.r q.r ∧ signedDelta p.r q.r ≤ 1) ∧
      (-2 ≤ signedDelta p.g q.g ∧ signedDelta p.g q.g ≤ 1) ∧
      (-2 ≤ signedDelta p.b q.b ∧ signedDelta p.b q.b ≤ 1)) ∧
    (diffFits p q = true →
      ((diffField p.r q.r).toNat : Int) = signedDelta p.r q.r + 2 ∧
      ((diffField p.g q.g).toNat : Int) = signedDelta p.g q.g + 2 ∧
      ((diffField p.b q.b).toNat : Int) = signedDelta p.b q.b + 2)

/-- R135: LUMA accepts exactly where dg is in [-32,31] and both unwrapped differences are in [-8,7], and then its terms
are the differences plus 8. -/
def Obligations.LumaAcceptsGreenRelativeDeltas : Prop :=
  ∀ p q : Pixel,
    (lumaFits p q = true ↔
      (-32 ≤ signedDelta p.g q.g ∧ signedDelta p.g q.g ≤ 31) ∧
      (-8 ≤ signedDelta p.r q.r - signedDelta p.g q.g ∧ signedDelta p.r q.r - signedDelta p.g q.g ≤ 7) ∧
      (-8 ≤ signedDelta p.b q.b - signedDelta p.g q.g ∧ signedDelta p.b q.b - signedDelta p.g q.g ≤ 7)) ∧
    (lumaFits p q = true →
      ((lumaTerm p.r q.r (delta8 p.g q.g)).toNat : Int) = signedDelta p.r q.r - signedDelta p.g q.g + 8 ∧
      ((lumaTerm p.b q.b (delta8 p.g q.g)).toNat : Int) = signedDelta p.b q.b - signedDelta p.g q.g + 8)

/-- R160, R162: the final flush for both values of the bias; at run 62 the unbiased byte is 0xFE, the tag of RGB. -/
def Obligations.FinalFlushEmitsUnbiasedCounter : Prop :=
  ∀ (pol : PrevInitPolicy) (bias : Fin 2) (s : State),
    (s.run = 0 → finalFlush (withParameters pol bias) s = s) ∧
    (s.run ≠ 0 → finalFlush (withParameters pol bias) s =
      { s with run := 0, out := s.out ++ [byteOf (192 + ((s.run.toNat : Int) - bias.val))] }) ∧
    (s.run = 62 → (finalFlush (withParameters pol 0) s).out = s.out ++ [0xFE])

/-! ## Whole encodes -/

/-- R54, R112 to R114: a sequence of DATA bytes runs the pixel step on each whole stride of three, in order; what is
left over is held and has no other effect. -/
def Obligations.DataBytesRunPixelSteps : Prop :=
  ∀ (bs : List Byte) (s : State), s.Legal → s.phase = phaseStream → s.fragLen = 0 →
    ∃ t, execAll (bs.map .data) s = .next t ∧ t.fragLen.toNat = bs.length % 3 ∧
      t = { (pixelsOf bs).foldl (fun u p => encodePixel blockConfig p u) s with
        fragLen := t.fragLen, frag0 := t.frag0, frag1 := t.frag1 }

/-- R142 item 3: under DECLINE, the default of PREV_INIT_POLICY that `exec` uses (log 2), the first pixel of every
encode is emitted as RGB. -/
def Obligations.FirstPixelIsRgb : Prop :=
  ∀ (s : State) (w h : Word32) (r g b : Byte), s.Legal → s.phase ≠ phaseStream →
    ∃ t, execAll [.start w h, .data r, .data g, .data b] s = .next t ∧
      t.out = refHeader w h ++ [0xFE, r, g, b]

/-- R121, R124, R125, R142, R160: an encode of k + 2 equal pixels emits one RGB item, one byte 0xFD for every 62 pixels
of the run that are followed by another, and the final flush of the rest. The RGB item rests on DECLINE and the last
byte on bias 0 (log 2). -/
def Obligations.EqualPixelsSplitIntoRuns : Prop :=
  ∀ (s : State) (w h : Word32) (r g b : Byte) (k : Nat), s.Legal → s.phase ≠ phaseStream →
    ∃ t, execAll (.start w h :: (List.replicate (k + 2) [Instr.data r, .data g, .data b]).flatten ++ [.endEncode]) s
        = .next t ∧
      t.out = refHeader w h ++ [0xFE, r, g, b] ++ List.replicate (k / 62) 0xFD ++ [byteOf (192 + (k % 62 + 1))] ++
        [0, 0, 0, 0, 0, 0, 0, 1]

/-- The whole block against a reference encoder written without cache and registers (R58, R120, R160, R171, R181): from
every legal state outside STREAM, the transfers of one image leave DONE with exactly the reference stream, nothing
refused. The reference is taken at the defaults DECLINE and bias 0 (log 2). -/
def Obligations.ImageRunEmitsReferenceStream : Prop :=
  ∀ (s : State) (w h : Word32) (bs : List Byte), s.Legal → s.phase ≠ phaseStream →
    s.port = image blockConfig w h bs →
    ∃ t : State, Host.Core.run core (bs.length + 2) s = .next t ∧ t.phase = phaseDone ∧ t.port = [] ∧
      t.refusalMark = s.refusalMark ∧ t.out = refStream .decline 0 w h bs

/-- R59: an encode of N whole pixels has at least 22 and at most 22 + 4N bytes, and a pixel step emits at most 5. -/
def Obligations.StreamLengthBounds : Prop :=
  (∀ (s : State) (w h : Word32) (bs : List Byte), s.Legal → s.phase ≠ phaseStream →
    ∃ t, execAll (.start w h :: bs.map .data ++ [.endEncode]) s = .next t ∧
      22 ≤ t.out.length ∧ t.out.length ≤ 22 + 4 * (bs.length / 3)) ∧
  ∀ (pol : PrevInitPolicy) (bias : Fin 2) (s : State) (p : Pixel),
    (encodePixel (withParameters pol bias) p s).out.length ≤ s.out.length + 5

/-! ## What cannot be observed -/

/-- R31, R15, R210: two legal states that agree on what the spec specifies stay so through every transfer a host can
make: nothing that reset or START leaves unspecified, and nothing left over from an earlier encode, is ever seen. A
byte is taken in IDLE only where none waits, as after a reset (log 3), since R31 leaves `out` unspecified there. -/
def Obligations.UnspecifiedStateIsUnobservable : Prop :=
  ∀ s t s' : State, s.Legal → t.Legal → s.Agree t →
    (∀ x, s.port.head? = some x → fromHost x = true) →
    (s.phase = phaseIdle → s.port.head? = some .takeByte → s.nothingWaits ∧ t.nothingWaits) →
    step s = .next s' → ∃ t', step t = .next t' ∧ s'.Agree t'

/-- R65: how a slot that no pixel of the encode has written is cleared does not matter, as long as its alpha is not
255: the pixel step emits the same bytes, counts the same run, and leaves the same difference. -/
def Obligations.ClearedSlotValueIsUnobservable : Prop :=
  ∀ (pol : PrevInitPolicy) (bias : Fin 2) (s : State) (v : Vector Pixel 64) (p : Pixel), p.a = 255 →
    let t := { s with cache := v }
    (∀ k, t.cacheRead k = s.cacheRead k ∨ ((t.cacheRead k).a ≠ 255 ∧ (s.cacheRead k).a ≠ 255)) →
    let s' := encodePixel (withParameters pol bias) p s
    let t' := encodePixel (withParameters pol bias) p t
    t' = { s' with cache := t'.cache } ∧
    ∀ k, t'.cacheRead k = s'.cacheRead k ∨ ((t'.cacheRead k).a ≠ 255 ∧ (s'.cacheRead k).a ≠ 255)

/-! ## The observation -/

/-- R15, R177, R192, R193: a legal state in DONE with no refusal has `out` as its result; a state outside DONE, a run
with a refusal and a faulted state, which is never final, have none. -/
def Obligations.ResultOnlyOfLegalDone : Prop :=
  ∀ s : State,
    (s.Legal → s.phase = phaseDone → s.refusalMark = false → s.result = some s.out) ∧
    (s.phase ≠ phaseDone ∨ s.refusalMark = true ∨ s.phase = 3 ∨ s.run = 63 ∨ s.fragLen = 3 → s.result = none)
end

