-- ==== Sys2Proof/Laws/State.lean ====
section
/-! SUPPORT. What each named update of the state leaves in each field: one lemma per field per update, and what a
cache slot reads as after each of them. -/

namespace Sys2Proof.Machine

/-! ### cacheWrite -/

@[simp] theorem State.cacheWrite_phase (s : State) (i : BitVec 6) (p : Pixel) : (s.cacheWrite i p).phase = s.phase := rfl
@[simp] theorem State.cacheWrite_cache (s : State) (i : BitVec 6) (p : Pixel) : (s.cacheWrite i p).cache = s.cache.set i.toNat p i.isLt := rfl
@[simp] theorem State.cacheWrite_prev (s : State) (i : BitVec 6) (p : Pixel) : (s.cacheWrite i p).prev = s.prev := rfl
@[simp] theorem State.cacheWrite_run (s : State) (i : BitVec 6) (p : Pixel) : (s.cacheWrite i p).run = s.run := rfl
@[simp] theorem State.cacheWrite_fragLen (s : State) (i : BitVec 6) (p : Pixel) : (s.cacheWrite i p).fragLen = s.fragLen := rfl
@[simp] theorem State.cacheWrite_frag0 (s : State) (i : BitVec 6) (p : Pixel) : (s.cacheWrite i p).frag0 = s.frag0 := rfl
@[simp] theorem State.cacheWrite_frag1 (s : State) (i : BitVec 6) (p : Pixel) : (s.cacheWrite i p).frag1 = s.frag1 := rfl
@[simp] theorem State.cacheWrite_out (s : State) (i : BitVec 6) (p : Pixel) : (s.cacheWrite i p).out = s.out := rfl
@[simp] theorem State.cacheWrite_refusalMark (s : State) (i : BitVec 6) (p : Pixel) : (s.cacheWrite i p).refusalMark = s.refusalMark := rfl
@[simp] theorem State.cacheWrite_refusalReason (s : State) (i : BitVec 6) (p : Pixel) : (s.cacheWrite i p).refusalReason = s.refusalReason := rfl
@[simp] theorem State.cacheWrite_port (s : State) (i : BitVec 6) (p : Pixel) : (s.cacheWrite i p).port = s.port := rfl
@[simp] theorem State.cacheWrite_statusData (s : State) (i : BitVec 6) (p : Pixel) : (s.cacheWrite i p).statusData = s.statusData := rfl
@[simp] theorem State.cacheWrite_delivered (s : State) (i : BitVec 6) (p : Pixel) : (s.cacheWrite i p).delivered = s.delivered := rfl
@[simp] theorem State.cacheWrite_received (s : State) (i : BitVec 6) (p : Pixel) : (s.cacheWrite i p).received = s.received := rfl
@[simp] theorem State.cacheWrite_draws (s : State) (i : BitVec 6) (p : Pixel) : (s.cacheWrite i p).draws = s.draws := rfl

/-! ### clearCache -/

@[simp] theorem State.clearCache_phase (s : State) : (s.clearCache).phase = s.phase := rfl
@[simp] theorem State.clearCache_cache (s : State) : (s.clearCache).cache = Vector.replicate 64 Pixel.cleared := rfl
@[simp] theorem State.clearCache_prev (s : State) : (s.clearCache).prev = s.prev := rfl
@[simp] theorem State.clearCache_run (s : State) : (s.clearCache).run = s.run := rfl
@[simp] theorem State.clearCache_fragLen (s : State) : (s.clearCache).fragLen = s.fragLen := rfl
@[simp] theorem State.clearCache_frag0 (s : State) : (s.clearCache).frag0 = s.frag0 := rfl
@[simp] theorem State.clearCache_frag1 (s : State) : (s.clearCache).frag1 = s.frag1 := rfl
@[simp] theorem State.clearCache_out (s : State) : (s.clearCache).out = s.out := rfl
@[simp] theorem State.clearCache_refusalMark (s : State) : (s.clearCache).refusalMark = s.refusalMark := rfl
@[simp] theorem State.clearCache_refusalReason (s : State) : (s.clearCache).refusalReason = s.refusalReason := rfl
@[simp] theorem State.clearCache_port (s : State) : (s.clearCache).port = s.port := rfl
@[simp] theorem State.clearCache_statusData (s : State) : (s.clearCache).statusData = s.statusData := rfl
@[simp] theorem State.clearCache_delivered (s : State) : (s.clearCache).delivered = s.delivered := rfl
@[simp] theorem State.clearCache_received (s : State) : (s.clearCache).received = s.received := rfl
@[simp] theorem State.clearCache_draws (s : State) : (s.clearCache).draws = s.draws := rfl

/-! ### emit -/

@[simp] theorem State.emit_phase (s : State) (b : Byte) : (s.emit b).phase = s.phase := rfl
@[simp] theorem State.emit_cache (s : State) (b : Byte) : (s.emit b).cache = s.cache := rfl
@[simp] theorem State.emit_prev (s : State) (b : Byte) : (s.emit b).prev = s.prev := rfl
@[simp] theorem State.emit_run (s : State) (b : Byte) : (s.emit b).run = s.run := rfl
@[simp] theorem State.emit_fragLen (s : State) (b : Byte) : (s.emit b).fragLen = s.fragLen := rfl
@[simp] theorem State.emit_frag0 (s : State) (b : Byte) : (s.emit b).frag0 = s.frag0 := rfl
@[simp] theorem State.emit_frag1 (s : State) (b : Byte) : (s.emit b).frag1 = s.frag1 := rfl
@[simp] theorem State.emit_out (s : State) (b : Byte) : (s.emit b).out = s.out ++ [b] := rfl
@[simp] theorem State.emit_refusalMark (s : State) (b : Byte) : (s.emit b).refusalMark = s.refusalMark := rfl
@[simp] theorem State.emit_refusalReason (s : State) (b : Byte) : (s.emit b).refusalReason = s.refusalReason := rfl
@[simp] theorem State.emit_port (s : State) (b : Byte) : (s.emit b).port = s.port := rfl
@[simp] theorem State.emit_statusData (s : State) (b : Byte) : (s.emit b).statusData = s.statusData := rfl
@[simp] theorem State.emit_delivered (s : State) (b : Byte) : (s.emit b).delivered = s.delivered := rfl
@[simp] theorem State.emit_received (s : State) (b : Byte) : (s.emit b).received = s.received := rfl
@[simp] theorem State.emit_draws (s : State) (b : Byte) : (s.emit b).draws = s.draws := rfl
@[simp] theorem State.emit_cacheRead (s : State) (b : Byte) (k : BitVec 6) : (s.emit b).cacheRead k = s.cacheRead k := rfl

/-! ### emitAll -/

@[simp] theorem State.emitAll_phase (s : State) (bs : List Byte) : (s.emitAll bs).phase = s.phase := rfl
@[simp] theorem State.emitAll_cache (s : State) (bs : List Byte) : (s.emitAll bs).cache = s.cache := rfl
@[simp] theorem State.emitAll_prev (s : State) (bs : List Byte) : (s.emitAll bs).prev = s.prev := rfl
@[simp] theorem State.emitAll_run (s : State) (bs : List Byte) : (s.emitAll bs).run = s.run := rfl
@[simp] theorem State.emitAll_fragLen (s : State) (bs : List Byte) : (s.emitAll bs).fragLen = s.fragLen := rfl
@[simp] theorem State.emitAll_frag0 (s : State) (bs : List Byte) : (s.emitAll bs).frag0 = s.frag0 := rfl
@[simp] theorem State.emitAll_frag1 (s : State) (bs : List Byte) : (s.emitAll bs).frag1 = s.frag1 := rfl
@[simp] theorem State.emitAll_out (s : State) (bs : List Byte) : (s.emitAll bs).out = s.out ++ bs := rfl
@[simp] theorem State.emitAll_refusalMark (s : State) (bs : List Byte) : (s.emitAll bs).refusalMark = s.refusalMark := rfl
@[simp] theorem State.emitAll_refusalReason (s : State) (bs : List Byte) : (s.emitAll bs).refusalReason = s.refusalReason := rfl
@[simp] theorem State.emitAll_port (s : State) (bs : List Byte) : (s.emitAll bs).port = s.port := rfl
@[simp] theorem State.emitAll_statusData (s : State) (bs : List Byte) : (s.emitAll bs).statusData = s.statusData := rfl
@[simp] theorem State.emitAll_delivered (s : State) (bs : List Byte) : (s.emitAll bs).delivered = s.delivered := rfl
@[simp] theorem State.emitAll_received (s : State) (bs : List Byte) : (s.emitAll bs).received = s.received := rfl
@[simp] theorem State.emitAll_draws (s : State) (bs : List Byte) : (s.emitAll bs).draws = s.draws := rfl
@[simp] theorem State.emitAll_cacheRead (s : State) (bs : List Byte) (k : BitVec 6) : (s.emitAll bs).cacheRead k = s.cacheRead k := rfl

/-! ### emitItem -/

@[simp] theorem State.emitItem_phase (s : State) (c : Config) (i : Instr) : (s.emitItem c i).phase = s.phase := rfl
@[simp] theorem State.emitItem_cache (s : State) (c : Config) (i : Instr) : (s.emitItem c i).cache = s.cache := rfl
@[simp] theorem State.emitItem_prev (s : State) (c : Config) (i : Instr) : (s.emitItem c i).prev = s.prev := rfl
@[simp] theorem State.emitItem_run (s : State) (c : Config) (i : Instr) : (s.emitItem c i).run = s.run := rfl
@[simp] theorem State.emitItem_fragLen (s : State) (c : Config) (i : Instr) : (s.emitItem c i).fragLen = s.fragLen := rfl
@[simp] theorem State.emitItem_frag0 (s : State) (c : Config) (i : Instr) : (s.emitItem c i).frag0 = s.frag0 := rfl
@[simp] theorem State.emitItem_frag1 (s : State) (c : Config) (i : Instr) : (s.emitItem c i).frag1 = s.frag1 := rfl
@[simp] theorem State.emitItem_out (s : State) (c : Config) (i : Instr) : (s.emitItem c i).out = s.out ++ itemBytes c i := rfl
@[simp] theorem State.emitItem_refusalMark (s : State) (c : Config) (i : Instr) : (s.emitItem c i).refusalMark = s.refusalMark := rfl
@[simp] theorem State.emitItem_refusalReason (s : State) (c : Config) (i : Instr) : (s.emitItem c i).refusalReason = s.refusalReason := rfl
@[simp] theorem State.emitItem_port (s : State) (c : Config) (i : Instr) : (s.emitItem c i).port = s.port := rfl
@[simp] theorem State.emitItem_statusData (s : State) (c : Config) (i : Instr) : (s.emitItem c i).statusData = s.statusData := rfl
@[simp] theorem State.emitItem_delivered (s : State) (c : Config) (i : Instr) : (s.emitItem c i).delivered = s.delivered := rfl
@[simp] theorem State.emitItem_received (s : State) (c : Config) (i : Instr) : (s.emitItem c i).received = s.received := rfl
@[simp] theorem State.emitItem_draws (s : State) (c : Config) (i : Instr) : (s.emitItem c i).draws = s.draws := rfl
@[simp] theorem State.emitItem_cacheRead (s : State) (c : Config) (i : Instr) (k : BitVec 6) : (s.emitItem c i).cacheRead k = s.cacheRead k := rfl

/-! ### setPrev -/

@[simp] theorem State.setPrev_phase (s : State) (v : Option Pixel) : (s.setPrev v).phase = s.phase := rfl
@[simp] theorem State.setPrev_cache (s : State) (v : Option Pixel) : (s.setPrev v).cache = s.cache := rfl
@[simp] theorem State.setPrev_prev (s : State) (v : Option Pixel) : (s.setPrev v).prev = v := rfl
@[simp] theorem State.setPrev_run (s : State) (v : Option Pixel) : (s.setPrev v).run = s.run := rfl
@[simp] theorem State.setPrev_fragLen (s : State) (v : Option Pixel) : (s.setPrev v).fragLen = s.fragLen := rfl
@[simp] theorem State.setPrev_frag0 (s : State) (v : Option Pixel) : (s.setPrev v).frag0 = s.frag0 := rfl
@[simp] theorem State.setPrev_frag1 (s : State) (v : Option Pixel) : (s.setPrev v).frag1 = s.frag1 := rfl
@[simp] theorem State.setPrev_out (s : State) (v : Option Pixel) : (s.setPrev v).out = s.out := rfl
@[simp] theorem State.setPrev_refusalMark (s : State) (v : Option Pixel) : (s.setPrev v).refusalMark = s.refusalMark := rfl
@[simp] theorem State.setPrev_refusalReason (s : State) (v : Option Pixel) : (s.setPrev v).refusalReason = s.refusalReason := rfl
@[simp] theorem State.setPrev_port (s : State) (v : Option Pixel) : (s.setPrev v).port = s.port := rfl
@[simp] theorem State.setPrev_statusData (s : State) (v : Option Pixel) : (s.setPrev v).statusData = s.statusData := rfl
@[simp] theorem State.setPrev_delivered (s : State) (v : Option Pixel) : (s.setPrev v).delivered = s.delivered := rfl
@[simp] theorem State.setPrev_received (s : State) (v : Option Pixel) : (s.setPrev v).received = s.received := rfl
@[simp] theorem State.setPrev_draws (s : State) (v : Option Pixel) : (s.setPrev v).draws = s.draws := rfl
@[simp] theorem State.setPrev_cacheRead (s : State) (v : Option Pixel) (k : BitVec 6) : (s.setPrev v).cacheRead k = s.cacheRead k := rfl

/-! ### setRun -/

@[simp] theorem State.setRun_phase (s : State) (v : BitVec 6) : (s.setRun v).phase = s.phase := rfl
@[simp] theorem State.setRun_cache (s : State) (v : BitVec 6) : (s.setRun v).cache = s.cache := rfl
@[simp] theorem State.setRun_prev (s : State) (v : BitVec 6) : (s.setRun v).prev = s.prev := rfl
@[simp] theorem State.setRun_run (s : State) (v : BitVec 6) : (s.setRun v).run = v := rfl
@[simp] theorem State.setRun_fragLen (s : State) (v : BitVec 6) : (s.setRun v).fragLen = s.fragLen := rfl
@[simp] theorem State.setRun_frag0 (s : State) (v : BitVec 6) : (s.setRun v).frag0 = s.frag0 := rfl
@[simp] theorem State.setRun_frag1 (s : State) (v : BitVec 6) : (s.setRun v).frag1 = s.frag1 := rfl
@[simp] theorem State.setRun_out (s : State) (v : BitVec 6) : (s.setRun v).out = s.out := rfl
@[simp] theorem State.setRun_refusalMark (s : State) (v : BitVec 6) : (s.setRun v).refusalMark = s.refusalMark := rfl
@[simp] theorem State.setRun_refusalReason (s : State) (v : BitVec 6) : (s.setRun v).refusalReason = s.refusalReason := rfl
@[simp] theorem State.setRun_port (s : State) (v : BitVec 6) : (s.setRun v).port = s.port := rfl
@[simp] theorem State.setRun_statusData (s : State) (v : BitVec 6) : (s.setRun v).statusData = s.statusData := rfl
@[simp] theorem State.setRun_delivered (s : State) (v : BitVec 6) : (s.setRun v).delivered = s.delivered := rfl
@[simp] theorem State.setRun_received (s : State) (v : BitVec 6) : (s.setRun v).received = s.received := rfl
@[simp] theorem State.setRun_draws (s : State) (v : BitVec 6) : (s.setRun v).draws = s.draws := rfl
@[simp] theorem State.setRun_cacheRead (s : State) (v : BitVec 6) (k : BitVec 6) : (s.setRun v).cacheRead k = s.cacheRead k := rfl

/-! ### setFragLen -/

@[simp] theorem State.setFragLen_phase (s : State) (v : BitVec 2) : (s.setFragLen v).phase = s.phase := rfl
@[simp] theorem State.setFragLen_cache (s : State) (v : BitVec 2) : (s.setFragLen v).cache = s.cache := rfl
@[simp] theorem State.setFragLen_prev (s : State) (v : BitVec 2) : (s.setFragLen v).prev = s.prev := rfl
@[simp] theorem State.setFragLen_run (s : State) (v : BitVec 2) : (s.setFragLen v).run = s.run := rfl
@[simp] theorem State.setFragLen_fragLen (s : State) (v : BitVec 2) : (s.setFragLen v).fragLen = v := rfl
@[simp] theorem State.setFragLen_frag0 (s : State) (v : BitVec 2) : (s.setFragLen v).frag0 = s.frag0 := rfl
@[simp] theorem State.setFragLen_frag1 (s : State) (v : BitVec 2) : (s.setFragLen v).frag1 = s.frag1 := rfl
@[simp] theorem State.setFragLen_out (s : State) (v : BitVec 2) : (s.setFragLen v).out = s.out := rfl
@[simp] theorem State.setFragLen_refusalMark (s : State) (v : BitVec 2) : (s.setFragLen v).refusalMark = s.refusalMark := rfl
@[simp] theorem State.setFragLen_refusalReason (s : State) (v : BitVec 2) : (s.setFragLen v).refusalReason = s.refusalReason := rfl
@[simp] theorem State.setFragLen_port (s : State) (v : BitVec 2) : (s.setFragLen v).port = s.port := rfl
@[simp] theorem State.setFragLen_statusData (s : State) (v : BitVec 2) : (s.setFragLen v).statusData = s.statusData := rfl
@[simp] theorem State.setFragLen_delivered (s : State) (v : BitVec 2) : (s.setFragLen v).delivered = s.delivered := rfl
@[simp] theorem State.setFragLen_received (s : State) (v : BitVec 2) : (s.setFragLen v).received = s.received := rfl
@[simp] theorem State.setFragLen_draws (s : State) (v : BitVec 2) : (s.setFragLen v).draws = s.draws := rfl
@[simp] theorem State.setFragLen_cacheRead (s : State) (v : BitVec 2) (k : BitVec 6) : (s.setFragLen v).cacheRead k = s.cacheRead k := rfl

/-! ### setPhase -/

@[simp] theorem State.setPhase_phase (s : State) (v : BitVec 2) : (s.setPhase v).phase = v := rfl
@[simp] theorem State.setPhase_cache (s : State) (v : BitVec 2) : (s.setPhase v).cache = s.cache := rfl
@[simp] theorem State.setPhase_prev (s : State) (v : BitVec 2) : (s.setPhase v).prev = s.prev := rfl
@[simp] theorem State.setPhase_run (s : State) (v : BitVec 2) : (s.setPhase v).run = s.run := rfl
@[simp] theorem State.setPhase_fragLen (s : State) (v : BitVec 2) : (s.setPhase v).fragLen = s.fragLen := rfl
@[simp] theorem State.setPhase_frag0 (s : State) (v : BitVec 2) : (s.setPhase v).frag0 = s.frag0 := rfl
@[simp] theorem State.setPhase_frag1 (s : State) (v : BitVec 2) : (s.setPhase v).frag1 = s.frag1 := rfl
@[simp] theorem State.setPhase_out (s : State) (v : BitVec 2) : (s.setPhase v).out = s.out := rfl
@[simp] theorem State.setPhase_refusalMark (s : State) (v : BitVec 2) : (s.setPhase v).refusalMark = s.refusalMark := rfl
@[simp] theorem State.setPhase_refusalReason (s : State) (v : BitVec 2) : (s.setPhase v).refusalReason = s.refusalReason := rfl
@[simp] theorem State.setPhase_port (s : State) (v : BitVec 2) : (s.setPhase v).port = s.port := rfl
@[simp] theorem State.setPhase_statusData (s : State) (v : BitVec 2) : (s.setPhase v).statusData = s.statusData := rfl
@[simp] theorem State.setPhase_delivered (s : State) (v : BitVec 2) : (s.setPhase v).delivered = s.delivered := rfl
@[simp] theorem State.setPhase_received (s : State) (v : BitVec 2) : (s.setPhase v).received = s.received := rfl
@[simp] theorem State.setPhase_draws (s : State) (v : BitVec 2) : (s.setPhase v).draws = s.draws := rfl
@[simp] theorem State.setPhase_cacheRead (s : State) (v : BitVec 2) (k : BitVec 6) : (s.setPhase v).cacheRead k = s.cacheRead k := rfl

/-! ### emptyOut -/

@[simp] theorem State.emptyOut_phase (s : State) : (s.emptyOut).phase = s.phase := rfl
@[simp] theorem State.emptyOut_cache (s : State) : (s.emptyOut).cache = s.cache := rfl
@[simp] theorem State.emptyOut_prev (s : State) : (s.emptyOut).prev = s.prev := rfl
@[simp] theorem State.emptyOut_run (s : State) : (s.emptyOut).run = s.run := rfl
@[simp] theorem State.emptyOut_fragLen (s : State) : (s.emptyOut).fragLen = s.fragLen := rfl
@[simp] theorem State.emptyOut_frag0 (s : State) : (s.emptyOut).frag0 = s.frag0 := rfl
@[simp] theorem State.emptyOut_frag1 (s : State) : (s.emptyOut).frag1 = s.frag1 := rfl
@[simp] theorem State.emptyOut_out (s : State) : (s.emptyOut).out = [] := rfl
@[simp] theorem State.emptyOut_refusalMark (s : State) : (s.emptyOut).refusalMark = s.refusalMark := rfl
@[simp] theorem State.emptyOut_refusalReason (s : State) : (s.emptyOut).refusalReason = s.refusalReason := rfl
@[simp] theorem State.emptyOut_port (s : State) : (s.emptyOut).port = s.port := rfl
@[simp] theorem State.emptyOut_statusData (s : State) : (s.emptyOut).statusData = s.statusData := rfl
@[simp] theorem State.emptyOut_delivered (s : State) : (s.emptyOut).delivered = 0 := rfl
@[simp] theorem State.emptyOut_received (s : State) : (s.emptyOut).received = s.received := rfl
@[simp] theorem State.emptyOut_draws (s : State) : (s.emptyOut).draws = s.draws := rfl
@[simp] theorem State.emptyOut_cacheRead (s : State) (k : BitVec 6) : (s.emptyOut).cacheRead k = s.cacheRead k := rfl

/-! ### drawFrag -/

@[simp] theorem State.drawFrag_phase (s : State) : (s.drawFrag).phase = s.phase := rfl
@[simp] theorem State.drawFrag_cache (s : State) : (s.drawFrag).cache = s.cache := rfl
@[simp] theorem State.drawFrag_prev (s : State) : (s.drawFrag).prev = s.prev := rfl
@[simp] theorem State.drawFrag_run (s : State) : (s.drawFrag).run = s.run := rfl
@[simp] theorem State.drawFrag_fragLen (s : State) : (s.drawFrag).fragLen = s.fragLen := rfl
@[simp] theorem State.drawFrag_frag0 (s : State) : (s.drawFrag).frag0 = Config.freeByte s.draws := rfl
@[simp] theorem State.drawFrag_frag1 (s : State) : (s.drawFrag).frag1 = Config.freeByte (s.draws + 1) := rfl
@[simp] theorem State.drawFrag_out (s : State) : (s.drawFrag).out = s.out := rfl
@[simp] theorem State.drawFrag_refusalMark (s : State) : (s.drawFrag).refusalMark = s.refusalMark := rfl
@[simp] theorem State.drawFrag_refusalReason (s : State) : (s.drawFrag).refusalReason = s.refusalReason := rfl
@[simp] theorem State.drawFrag_port (s : State) : (s.drawFrag).port = s.port := rfl
@[simp] theorem State.drawFrag_statusData (s : State) : (s.drawFrag).statusData = s.statusData := rfl
@[simp] theorem State.drawFrag_delivered (s : State) : (s.drawFrag).delivered = s.delivered := rfl
@[simp] theorem State.drawFrag_received (s : State) : (s.drawFrag).received = s.received := rfl
@[simp] theorem State.drawFrag_draws (s : State) : (s.drawFrag).draws = s.draws + 2 := rfl
@[simp] theorem State.drawFrag_cacheRead (s : State) (k : BitVec 6) : (s.drawFrag).cacheRead k = s.cacheRead k := rfl

/-! ### refuse -/

@[simp] theorem State.refuse_phase (s : State) (r : Refusal) : (s.refuse r).phase = s.phase := rfl
@[simp] theorem State.refuse_cache (s : State) (r : Refusal) : (s.refuse r).cache = s.cache := rfl
@[simp] theorem State.refuse_prev (s : State) (r : Refusal) : (s.refuse r).prev = s.prev := rfl
@[simp] theorem State.refuse_run (s : State) (r : Refusal) : (s.refuse r).run = s.run := rfl
@[simp] theorem State.refuse_fragLen (s : State) (r : Refusal) : (s.refuse r).fragLen = s.fragLen := rfl
@[simp] theorem State.refuse_frag0 (s : State) (r : Refusal) : (s.refuse r).frag0 = s.frag0 := rfl
@[simp] theorem State.refuse_frag1 (s : State) (r : Refusal) : (s.refuse r).frag1 = s.frag1 := rfl
@[simp] theorem State.refuse_out (s : State) (r : Refusal) : (s.refuse r).out = s.out := rfl
@[simp] theorem State.refuse_refusalMark (s : State) (r : Refusal) : (s.refuse r).refusalMark = true := rfl
@[simp] theorem State.refuse_refusalReason (s : State) (r : Refusal) : (s.refuse r).refusalReason = some r := rfl
@[simp] theorem State.refuse_port (s : State) (r : Refusal) : (s.refuse r).port = s.port := rfl
@[simp] theorem State.refuse_statusData (s : State) (r : Refusal) : (s.refuse r).statusData = s.statusData := rfl
@[simp] theorem State.refuse_delivered (s : State) (r : Refusal) : (s.refuse r).delivered = s.delivered := rfl
@[simp] theorem State.refuse_received (s : State) (r : Refusal) : (s.refuse r).received = s.received := rfl
@[simp] theorem State.refuse_draws (s : State) (r : Refusal) : (s.refuse r).draws = s.draws := rfl
@[simp] theorem State.refuse_cacheRead (s : State) (r : Refusal) (k : BitVec 6) : (s.refuse r).cacheRead k = s.cacheRead k := rfl

/-! ### returnStatus -/

@[simp] theorem State.returnStatus_phase (s : State) (v : Word32) : (s.returnStatus v).phase = s.phase := rfl
@[simp] theorem State.returnStatus_cache (s : State) (v : Word32) : (s.returnStatus v).cache = s.cache := rfl
@[simp] theorem State.returnStatus_prev (s : State) (v : Word32) : (s.returnStatus v).prev = s.prev := rfl
@[simp] theorem State.returnStatus_run (s : State) (v : Word32) : (s.returnStatus v).run = s.run := rfl
@[simp] theorem State.returnStatus_fragLen (s : State) (v : Word32) : (s.returnStatus v).fragLen = s.fragLen := rfl
@[simp] theorem State.returnStatus_frag0 (s : State) (v : Word32) : (s.returnStatus v).frag0 = s.frag0 := rfl
@[simp] theorem State.returnStatus_frag1 (s : State) (v : Word32) : (s.returnStatus v).frag1 = s.frag1 := rfl
@[simp] theorem State.returnStatus_out (s : State) (v : Word32) : (s.returnStatus v).out = s.out := rfl
@[simp] theorem State.returnStatus_refusalMark (s : State) (v : Word32) : (s.returnStatus v).refusalMark = s.refusalMark := rfl
@[simp] theorem State.returnStatus_refusalReason (s : State) (v : Word32) : (s.returnStatus v).refusalReason = s.refusalReason := rfl
@[simp] theorem State.returnStatus_port (s : State) (v : Word32) : (s.returnStatus v).port = s.port := rfl
@[simp] theorem State.returnStatus_statusData (s : State) (v : Word32) : (s.returnStatus v).statusData = some v := rfl
@[simp] theorem State.returnStatus_delivered (s : State) (v : Word32) : (s.returnStatus v).delivered = s.delivered := rfl
@[simp] theorem State.returnStatus_received (s : State) (v : Word32) : (s.returnStatus v).received = s.received := rfl
@[simp] theorem State.returnStatus_draws (s : State) (v : Word32) : (s.returnStatus v).draws = s.draws := rfl
@[simp] theorem State.returnStatus_cacheRead (s : State) (v : Word32) (k : BitVec 6) : (s.returnStatus v).cacheRead k = s.cacheRead k := rfl

/-! ### setFrag -/

@[simp] theorem State.setFrag_phase (s : State) (i : BitVec 2) (x : Byte) : (s.setFrag i x).phase = s.phase := by
  unfold State.setFrag; split <;> rfl
@[simp] theorem State.setFrag_cache (s : State) (i : BitVec 2) (x : Byte) : (s.setFrag i x).cache = s.cache := by
  unfold State.setFrag; split <;> rfl
@[simp] theorem State.setFrag_prev (s : State) (i : BitVec 2) (x : Byte) : (s.setFrag i x).prev = s.prev := by
  unfold State.setFrag; split <;> rfl
@[simp] theorem State.setFrag_run (s : State) (i : BitVec 2) (x : Byte) : (s.setFrag i x).run = s.run := by
  unfold State.setFrag; split <;> rfl
@[simp] theorem State.setFrag_fragLen (s : State) (i : BitVec 2) (x : Byte) : (s.setFrag i x).fragLen = s.fragLen := by
  unfold State.setFrag; split <;> rfl
@[simp] theorem State.setFrag_out (s : State) (i : BitVec 2) (x : Byte) : (s.setFrag i x).out = s.out := by
  unfold State.setFrag; split <;> rfl
@[simp] theorem State.setFrag_refusalMark (s : State) (i : BitVec 2) (x : Byte) : (s.setFrag i x).refusalMark = s.refusalMark := by
  unfold State.setFrag; split <;> rfl
@[simp] theorem State.setFrag_refusalReason (s : State) (i : BitVec 2) (x : Byte) : (s.setFrag i x).refusalReason = s.refusalReason := by
  unfold State.setFrag; split <;> rfl
@[simp] theorem State.setFrag_port (s : State) (i : BitVec 2) (x : Byte) : (s.setFrag i x).port = s.port := by
  unfold State.setFrag; split <;> rfl
@[simp] theorem State.setFrag_statusData (s : State) (i : BitVec 2) (x : Byte) : (s.setFrag i x).statusData = s.statusData := by
  unfold State.setFrag; split <;> rfl
@[simp] theorem State.setFrag_delivered (s : State) (i : BitVec 2) (x : Byte) : (s.setFrag i x).delivered = s.delivered := by
  unfold State.setFrag; split <;> rfl
@[simp] theorem State.setFrag_received (s : State) (i : BitVec 2) (x : Byte) : (s.setFrag i x).received = s.received := by
  unfold State.setFrag; split <;> rfl
@[simp] theorem State.setFrag_draws (s : State) (i : BitVec 2) (x : Byte) : (s.setFrag i x).draws = s.draws := by
  unfold State.setFrag; split <;> rfl
@[simp] theorem State.setFrag_cacheRead (s : State) (i : BitVec 2) (x : Byte) (k : BitVec 6) :
    (s.setFrag i x).cacheRead k = s.cacheRead k := by
  unfold State.setFrag; split <;> rfl
theorem State.setFrag_frag0 (s : State) (i : BitVec 2) (x : Byte) :
    (s.setFrag i x).frag0 = if i = 0 then x else s.frag0 := by
  unfold State.setFrag; split <;> rfl
theorem State.setFrag_frag1 (s : State) (i : BitVec 2) (x : Byte) :
    (s.setFrag i x).frag1 = if i = 0 then s.frag1 else x := by
  unfold State.setFrag; split <;> rfl

/-! ### the cache -/

/-- R51: a slot reads as the pixel most recently written to it. -/
@[simp] theorem State.cacheRead_cacheWrite_same (s : State) (i : BitVec 6) (p : Pixel) :
    (s.cacheWrite i p).cacheRead i = p := by
  simp [State.cacheRead]

/-- R51: a write leaves every other slot alone. -/
theorem State.cacheRead_cacheWrite_other (s : State) {i k : BitVec 6} (p : Pixel) (h : k ≠ i) :
    (s.cacheWrite i p).cacheRead k = s.cacheRead k := by
  have h' : i.toNat ≠ k.toNat := fun e => h (BitVec.eq_of_toNat_eq e.symm)
  simp [State.cacheRead, Vector.getElem_set_ne, h']

theorem State.cacheRead_cacheWrite (s : State) (i k : BitVec 6) (p : Pixel) :
    (s.cacheWrite i p).cacheRead k = if k = i then p else s.cacheRead k := by
  split
  · next h => subst h; simp
  · next h => exact s.cacheRead_cacheWrite_other p h

/-- R51: after START's clear every slot reads as (0,0,0,0). -/
@[simp] theorem State.cacheRead_clearCache (s : State) (k : BitVec 6) :
    s.clearCache.cacheRead k = Pixel.cleared := by
  simp [State.cacheRead]

/-- Two states with the same cache read the same pixels. -/
theorem State.cacheRead_congr {s t : State} (h : s.cache = t.cache) (k : BitVec 6) :
    s.cacheRead k = t.cacheRead k := by
  simp [State.cacheRead, h]

/-! ### emission -/

/-- R10: `EmitAll` is `Emit` of each byte in order. -/
theorem State.emitAll_eq_foldl_emit (s : State) (bs : List Byte) : s.emitAll bs = bs.foldl State.emit s := by
  induction bs generalizing s with
  | nil => simp [State.emitAll]
  | cons b bs ih => rw [List.foldl_cons, ← ih]; simp [State.emitAll, State.emit]

@[simp] theorem State.emitAll_emitAll (s : State) (as bs : List Byte) :
    (s.emitAll as).emitAll bs = s.emitAll (as ++ bs) := by
  simp [State.emitAll]

end Sys2Proof.Machine
end

