-- ==== Sys2Proof/Laws/Ops.lean ====
section
/-! SUPPORT. One lemma per shared operation: everything it can do. The guard and the fault check (spec 60 R193, R197),
the five encoders and the chain (42 R120 to R140), the pixel input, START's and END's steps, and the ports. -/

namespace Sys2Proof.Machine

/-! ## The guard -/

theorem State.legal_iff (s : State) : s.Legal ↔ s.phase ≠ 3 ∧ s.run ≠ 63 ∧ s.fragLen ≠ 3 := by
  unfold State.Legal State.faultOf
  split
  · simp_all
  · split
    · simp_all
    · split <;> simp_all

theorem State.guarded_of_legal {s : State} (h : s.Legal) (k : Host.Outcome State Fault Refusal) :
    s.guarded k = k := by
  unfold State.guarded
  rw [show s.faultOf = none from h]

theorem State.guarded_of_fault {s : State} {f : Fault} (h : s.faultOf = some f)
    (k : Host.Outcome State Fault Refusal) : s.guarded k = .fault f := by
  unfold State.guarded
  rw [h]

/-- A guarded step that goes on was legal. -/
theorem State.guarded_eq_next_iff (s t : State) (k : Host.Outcome State Fault Refusal) :
    s.guarded k = .next t ↔ s.Legal ∧ k = .next t := by
  unfold State.guarded State.Legal
  cases s.faultOf <;> simp

/-- A guarded next state is that state, where the guard lets it through. -/
theorem State.guarded_next_iff (s t u : State) : s.guarded (.next u) = .next t ↔ s.Legal ∧ t = u := by
  rw [State.guarded_eq_next_iff, Host.Outcome.next.injEq]
  exact and_congr_right fun _ => eq_comm

/-- Two states with the same three checked registers are in the same fault, or in none. -/
theorem State.faultOf_congr {s t : State} (hp : s.phase = t.phase) (hr : s.run = t.run)
    (hf : s.fragLen = t.fragLen) : s.faultOf = t.faultOf := by
  unfold State.faultOf
  rw [hp, hr, hf]

/-! ## The encoders

Every encoder changes `out` by appending and, for RUN, the run counter; nothing else. -/

/-- The state with bytes appended to `out` and another run counter: the shape every encoder's result has. -/
def State.emitted (s : State) (bs : List Byte) (run : BitVec 6) : State := (s.emitAll bs).setRun run

@[simp] theorem State.emitted_nil (s : State) : s.emitted [] s.run = s := by
  simp [State.emitted, State.emitAll, State.setRun]

theorem State.emitItem_eq_emitted (s : State) (c : Config) (i : Instr) :
    s.emitItem c i = s.emitted (itemBytes c i) s.run := rfl

theorem interiorFlush_eq (c : Config) (s : State) :
    interiorFlush c s = s.emitted (itemBytes c (.runInterior (interiorField s.run))) 0 := rfl

/-- R121: without a previous pixel RUN declines and changes nothing. -/
theorem opRun_of_prev_none (c : Config) (p : Pixel) {s : State} (h : s.prev = none) :
    opRun c p s = (false, s) := by
  simp [opRun, h]

/-- R121, R124, R125, R126: with a previous pixel, the flush if it is due, then the continuation or the decline. -/
theorem opRun_of_prev_some (c : Config) (p q : Pixel) {s : State} (h : s.prev = some q) :
    opRun c p s =
      (decide (p = q),
        s.emitted (if flushDue s p q then itemBytes c (.runInterior (interiorField s.run)) else [])
          (if p = q then (if flushDue s p q then 1 else s.run + 1) else if flushDue s p q then 0 else s.run)) := by
  unfold opRun
  rw [h]
  by_cases hp : p = q
  · subst hp
    cases hf : flushDue s p p <;>
      simp [hf, interiorFlush_eq, State.emitted, State.emitAll, State.setRun]
  · cases hf : flushDue s p q <;>
      simp [hp, hf, interiorFlush_eq, State.emitted, State.emitAll, State.setRun]

/-- What an encoder after RUN does: it consumes and appends, or declines and changes nothing. -/
def Appends (r : Bool × State) (s : State) : Prop := ∃ bs, r.2 = s.emitted bs s.run ∧ (r.1 = false → bs = [])

theorem opIndex_appends (c : Config) (p : Pixel) (s : State) : Appends (opIndex c p s) s := by
  unfold opIndex
  split
  · exact ⟨_, rfl, by simp⟩
  · exact ⟨[], by simp, by simp⟩

theorem opDiff_appends (c : Config) (p : Pixel) (s : State) : Appends (opDiff c p s) s := by
  unfold opDiff
  split
  · exact ⟨[], by simp, by simp⟩
  · split
    · exact ⟨_, rfl, by simp⟩
    · exact ⟨[], by simp, by simp⟩

theorem opLuma_appends (c : Config) (p : Pixel) (s : State) : Appends (opLuma c p s) s := by
  unfold opLuma
  split
  · exact ⟨[], by simp, by simp⟩
  · split
    · exact ⟨_, rfl, by simp⟩
    · exact ⟨[], by simp, by simp⟩

theorem opRgb_appends (c : Config) (p : Pixel) (s : State) : Appends (opRgb c p s) s :=
  ⟨_, rfl, by simp [opRgb]⟩

theorem opRun_emitted (c : Config) (p : Pixel) (s : State) : ∃ bs n, (opRun c p s).2 = s.emitted bs n := by
  cases h : s.prev with
  | none => exact ⟨[], s.run, by simp [opRun_of_prev_none c p h]⟩
  | some q => exact ⟨_, _, by rw [opRun_of_prev_some c p q h]⟩

theorem State.emitted_emitted (s : State) (as bs : List Byte) (m n : BitVec 6) :
    (s.emitted as m).emitted bs n = s.emitted (as ++ bs) n := by
  simp [State.emitted, State.emitAll, State.setRun]

theorem orElseTry_emitted {s : State} {r : Bool × State} {f : State → Bool × State}
    (hr : ∃ bs n, r.2 = s.emitted bs n) (hf : ∀ t, Appends (f t) t) :
    ∃ bs n, (orElseTry r f).2 = s.emitted bs n := by
  unfold orElseTry
  split
  · exact hr
  · obtain ⟨bs, n, hr⟩ := hr
    obtain ⟨bs', hb, -⟩ := hf r.2
    exact ⟨bs ++ bs', r.2.run, by rw [hb, hr, State.emitted_emitted]⟩

/-- R120: the chain appends to `out` and may change the run counter; nothing else. -/
theorem selectOperation_emitted (c : Config) (p : Pixel) (s : State) :
    ∃ bs n, (selectOperation c p s).2 = s.emitted bs n :=
  orElseTry_emitted (orElseTry_emitted (orElseTry_emitted (orElseTry_emitted (opRun_emitted c p s)
    (opIndex_appends c p)) (opDiff_appends c p)) (opLuma_appends c p)) (opRgb_appends c p)

/-- R120, R140: a pixel step appends to `out`, may change the run counter, writes the pixel's slot and the previous
pixel; nothing else. -/
theorem encodePixel_shape (c : Config) (p : Pixel) (s : State) :
    ∃ bs n, encodePixel c p s = ((s.emitted bs n).cacheWrite (pixelHash p) p).setPrev (some p) := by
  obtain ⟨bs, n, h⟩ := selectOperation_emitted c p s
  exact ⟨bs, n, by simp [encodePixel, update, h]⟩

theorem orElseTry_run {r : Bool × State} {f : State → Bool × State} (hf : ∀ t, Appends (f t) t) :
    (orElseTry r f).2.run = r.2.run := by
  unfold orElseTry
  split
  · rfl
  · obtain ⟨bs, hb, -⟩ := hf r.2
    rw [hb]
    rfl

/-- R24: of the chain's encoders only RUN writes the run counter, and the update does not. -/
theorem encodePixel_run (c : Config) (p : Pixel) (s : State) :
    (encodePixel c p s).run = (opRun c p s).2.run := by
  have h : (selectOperation c p s).2.run = (opRun c p s).2.run := by
    unfold selectOperation
    rw [orElseTry_run (opRgb_appends c p), orElseTry_run (opLuma_appends c p), orElseTry_run (opDiff_appends c p),
      orElseTry_run (opIndex_appends c p)]
  exact h

/-! ## Input and finalization -/

/-- R160: the final flush appends its byte, if a run is pending, and clears the run counter. -/
theorem finalFlush_eq (c : Config) (s : State) :
    finalFlush c s = s.emitted (if s.run ≠ 0 then itemBytes c (.runFinal (finalField c s.run)) else []) 0 := by
  unfold finalFlush
  split
  · rfl
  · next h => rw [← show s.run = 0 from not_not.mp h, State.emitted_nil]

/-- R164: END's step, in one update. -/
theorem finishEncode_eq (c : Config) (s : State) :
    finishEncode c s =
      { s with
        fragLen := 0, run := 0, phase := phaseDone,
        out := s.out ++ (if s.run ≠ 0 then itemBytes c (.runFinal (finalField c s.run)) else []) ++ terminatorBytes } := by
  simp [finishEncode, emitTerminator, finalFlush_eq, dropFragment, State.emitted, State.emitItem, State.emitAll,
    State.setRun, State.setFragLen, State.setPhase, itemBytes]

/-- R171: START's step, in one update. -/
theorem startEncode_eq (c : Config) (w h : Word32) (s : State) :
    startEncode c w h s =
      { s with
        cache := Vector.replicate 64 Pixel.cleared, prev := none, run := 0, fragLen := 0,
        frag0 := Config.freeByte s.draws, frag1 := Config.freeByte (s.draws + 1), draws := s.draws + 2,
        out := headerBytes w h, delivered := 0, phase := phaseStream } := by
  simp [startEncode, emitHeader, State.clearCache, State.setPrev, State.setRun, State.setFragLen, State.drawFrag,
    State.emptyOut, State.emitItem, State.emitAll, State.setPhase, itemBytes]

/-! ## Ports -/

/-- R178: the host's take of a byte moves the next byte of `out` to it, if one is waiting. -/
theorem deliver_of_waiting {s : State} {b : Byte} (h : s.out[s.delivered]? = some b) :
    deliver s = { s with delivered := s.delivered + 1, received := s.received ++ [b] } := by
  simp [deliver, h]

theorem deliver_of_empty {s : State} (h : s.out[s.delivered]? = none) : deliver s = s := by
  simp [deliver, h]

/-- R26: with an unbounded `out` the command port is never held. -/
@[simp] theorem held_blockConfig (i : Instr) (s : State) : held blockConfig i s = false := rfl

/-- R178: what the command port holds back. Only a host command (an instruction with a bound) can be held. -/
theorem held_iff (c : Config) (i : Instr) (s : State) :
    held c i s = true ↔ ∃ room n, c.outputCapacity = some room ∧ maxEmit i = some n ∧ s.delivered < s.out.length ∧
      room < s.out.length - s.delivered + n := by
  unfold held
  split <;> simp_all

/-- What the next step finds at the ports, where a transfer is pending and the port is not held. -/
theorem fetch_cons {c : Config} {s : State} {t : Transfer} {rest : List Transfer} (h : s.port = t :: rest) :
    fetch c s = match decode c t with
      | .ok i => if held c i s then .held else .run i { s with port := rest }
      | .error _ => rejected t { s with port := rest } := by
  cases hd : decode c t <;> simp only [fetch, h, hd]

end Sys2Proof.Machine
end

