-- ==== Sys2Proof/Laws/PerInstr.lean ====
section
/-! SUPPORT. A family of statements about every instruction as syntax: the shape of the transfer that carries it
(spec 30 R71, R74; 44 R176): a command word whose selector is the instruction's, the status read, or an item of the
length that R74 gives, at the position where R58 puts it. -/

namespace Sys2Proof.Laws.TransferShape

/-- How an instruction travels: its port, and what R71 and R74 fix of its form. -/
def Statement (i : Instr) : Prop :=
  match i with
  | .nop => ∃ w, encode blockConfig i = .command w ∧ w.extractLsb' 64 2 = (0b00 : BitVec 2)
  | .start _ _ => ∃ w, encode blockConfig i = .command w ∧ w.extractLsb' 64 2 = (0b01 : BitVec 2)
  | .data _ => ∃ w, encode blockConfig i = .command w ∧ w.extractLsb' 64 2 = (0b10 : BitVec 2)
  | .endEncode => ∃ w, encode blockConfig i = .command w ∧ w.extractLsb' 64 2 = (0b11 : BitVec 2)
  | .statusRead => encode blockConfig i = .statusRead
  | .index _ => ∃ bs, encode blockConfig i = .item .operation bs ∧ bs.length = 1
  | .diff _ _ _ => ∃ bs, encode blockConfig i = .item .operation bs ∧ bs.length = 1
  | .luma _ _ _ => ∃ bs, encode blockConfig i = .item .operation bs ∧ bs.length = 2
  | .runInterior _ => ∃ bs, encode blockConfig i = .item .operation bs ∧ bs.length = 1
  | .runFinal _ => ∃ bs, encode blockConfig i = .item .finalFlush bs ∧ bs.length = 1
  | .rgb _ _ _ => ∃ bs, encode blockConfig i = .item .operation bs ∧ bs.length = 4
  | .rgbaReserved => ∃ bs, encode blockConfig i = .item .operation bs ∧ bs.length = 1
  | .header _ _ => ∃ bs, encode blockConfig i = .item .header bs ∧ bs.length = 14
  | .terminator => ∃ bs, encode blockConfig i = .item .terminator bs ∧ bs.length = 8

/-- The bits of a command word (R71): the payload below, the selector above. -/
theorem commandWord_getLsbD (op : BitVec 2) (arg : BitVec 64) (k : Nat) :
    (commandWord op arg).getLsbD k = if k < 64 then arg.getLsbD k else op.getLsbD (k - 64) :=
  BitVec.getLsbD_append (x := op) (y := arg) (i := k)

/-- The selector of a command word is its upper two bits (R71). -/
theorem commandWord_op (op : BitVec 2) (arg : BitVec 64) : (commandWord op arg).extractLsb' 64 2 = op := by
  apply BitVec.eq_of_getLsbD_eq
  intro k hk
  rw [BitVec.getLsbD_extractLsb', commandWord_getLsbD]
  simp [hk]

theorem nop : Statement .nop := ⟨_, rfl, commandWord_op _ _⟩
theorem start (w h : Word32) : Statement (.start w h) := ⟨_, rfl, commandWord_op _ _⟩
theorem data (x : Byte) : Statement (.data x) := ⟨_, rfl, commandWord_op _ _⟩
theorem endEncode : Statement .endEncode := ⟨_, rfl, commandWord_op _ _⟩
theorem statusRead : Statement .statusRead := rfl
theorem index (idx : BitVec 6) : Statement (.index idx) := ⟨_, rfl, rfl⟩
theorem diff (rt gt bt : BitVec 2) : Statement (.diff rt gt bt) := ⟨_, rfl, rfl⟩
theorem luma (g : BitVec 6) (rt bt : BitVec 4) : Statement (.luma g rt bt) := ⟨_, rfl, rfl⟩
theorem runInterior (n : BitVec 6) : Statement (.runInterior n) := ⟨_, rfl, rfl⟩
theorem runFinal (n : BitVec 6) : Statement (.runFinal n) := ⟨_, rfl, rfl⟩
theorem rgb (r g b : Byte) : Statement (.rgb r g b) := ⟨_, rfl, rfl⟩
theorem rgbaReserved : Statement .rgbaReserved := ⟨_, rfl, rfl⟩
theorem header (w h : Word32) : Statement (.header w h) := ⟨_, rfl, rfl⟩
theorem terminator : Statement .terminator := ⟨_, rfl, rfl⟩

end Sys2Proof.Laws.TransferShape
end

