-- ==== Sys2Proof/Laws/Step.lean ====
section
/-! SUPPORT. When each instruction answers a next state, and which; and what a step does with the transfer it takes. -/

namespace Sys2Proof.Machine

/-! ## The instructions: the next state, if there is one -/

theorem execNop_next_iff (s t : State) : execNop s = .next t ↔ s.Legal ∧ t = s :=
  s.guarded_next_iff t _

theorem execStart_next_iff (w h : Word32) (s t : State) :
    execStart w h s = .next t ↔ s.Legal ∧ s.phase ≠ phaseStream ∧ t = startEncode blockConfig w h s := by
  rw [execStart, State.guarded_eq_next_iff]
  split <;> simp_all [eq_comm]

theorem execData_next_iff (x : Byte) (s t : State) :
    execData x s = .next t ↔ s.Legal ∧ s.phase = phaseStream ∧ t = acceptByte blockConfig x s := by
  rw [execData, State.guarded_eq_next_iff]
  split <;> simp_all [eq_comm]

theorem execEnd_next_iff (s t : State) :
    execEnd s = .next t ↔ s.Legal ∧ s.phase = phaseStream ∧ t = finishEncode blockConfig s := by
  rw [execEnd, State.guarded_eq_next_iff]
  split <;> simp_all [eq_comm]

theorem execStatusRead_next_iff (s t : State) :
    execStatusRead s = .next t ↔ s.Legal ∧ t = s.returnStatus s.status :=
  s.guarded_next_iff t _

/-- The operation items append to `out` and change nothing else; the two RUN forms may change the run counter. -/
theorem execIndex_next (idx : BitVec 6) {s t : State} (h : execIndex idx s = .next t) :
    s.Legal ∧ ∃ bs, t = s.emitted bs s.run := by
  obtain ⟨hl, h⟩ := (State.guarded_eq_next_iff _ _ _).1 h
  refine ⟨hl, ?_⟩
  injection h with h
  subst h
  split
  · exact (opIndex_appends blockConfig _ s).imp fun _ h => h.1
  · exact ⟨[], by simp⟩

theorem execDiff_next (rt gt bt : BitVec 2) {s t : State} (h : execDiff rt gt bt s = .next t) :
    s.Legal ∧ ∃ bs, t = s.emitted bs s.run := by
  obtain ⟨hl, h⟩ := (State.guarded_eq_next_iff _ _ _).1 h
  refine ⟨hl, ?_⟩
  injection h with h
  subst h
  split
  · exact ⟨[], by simp⟩
  · exact (opDiff_appends blockConfig _ s).imp fun _ h => h.1

theorem execLuma_next (g : BitVec 6) (rt bt : BitVec 4) {s t : State} (h : execLuma g rt bt s = .next t) :
    s.Legal ∧ ∃ bs, t = s.emitted bs s.run := by
  obtain ⟨hl, h⟩ := (State.guarded_eq_next_iff _ _ _).1 h
  refine ⟨hl, ?_⟩
  injection h with h
  subst h
  split
  · exact ⟨[], by simp⟩
  · exact (opLuma_appends blockConfig _ s).imp fun _ h => h.1

theorem execRunInterior_next (n : BitVec 6) {s t : State} (h : execRunInterior n s = .next t) :
    s.Legal ∧ ∃ bs m, (m = 0 ∨ m = s.run) ∧ t = s.emitted bs m := by
  obtain ⟨hl, h⟩ := (State.guarded_eq_next_iff _ _ _).1 h
  refine ⟨hl, ?_⟩
  injection h with h
  subst h
  split
  · exact ⟨_, _, .inl rfl, interiorFlush_eq _ _⟩
  · exact ⟨[], s.run, .inr rfl, by simp⟩

theorem execRunFinal_next (n : BitVec 6) {s t : State} (h : execRunFinal n s = .next t) :
    s.Legal ∧ ∃ bs m, (m = 0 ∨ m = s.run) ∧ t = s.emitted bs m := by
  obtain ⟨hl, h⟩ := (State.guarded_eq_next_iff _ _ _).1 h
  refine ⟨hl, ?_⟩
  injection h with h
  subst h
  split
  · exact ⟨_, _, .inl rfl, finalFlush_eq _ _⟩
  · exact ⟨[], s.run, .inr rfl, by simp⟩

theorem execRgb_next_iff (r g b : Byte) (s t : State) :
    execRgb r g b s = .next t ↔ s.Legal ∧ t = s.emitItem blockConfig (.rgb r g b) :=
  s.guarded_next_iff t _

theorem execRgbaReserved_not_next (s t : State) : execRgbaReserved s ≠ .next t := by
  simp [execRgbaReserved, State.guarded_eq_next_iff]

theorem execHeader_next_iff (w h : Word32) (s t : State) :
    execHeader w h s = .next t ↔ s.Legal ∧ t = s.emitItem blockConfig (.header w h) :=
  s.guarded_next_iff t _

theorem execTerminator_next_iff (s t : State) :
    execTerminator s = .next t ↔ s.Legal ∧ t = s.emitItem blockConfig .terminator :=
  s.guarded_next_iff t _

/-- Everything a next state of an instruction can be, by kind: nothing changed, START's, DATA's and END's steps, the
status returned, or bytes appended with the run counter kept or cleared. -/
theorem exec_next_cases {i : Instr} {s t : State} (h : exec i s = .next t) :
    s.Legal ∧
    ((i = .nop ∧ t = s) ∨
      (∃ w h, i = .start w h ∧ s.phase ≠ phaseStream ∧ t = startEncode blockConfig w h s) ∨
      (∃ x, i = .data x ∧ s.phase = phaseStream ∧ t = acceptByte blockConfig x s) ∨
      (i = .endEncode ∧ s.phase = phaseStream ∧ t = finishEncode blockConfig s) ∨
      (i = .statusRead ∧ t = s.returnStatus s.status) ∨
      (i ≠ .endEncode ∧ (∀ w h, i ≠ .start w h) ∧ (∀ x, i ≠ .data x) ∧
        ∃ bs m, (m = 0 ∨ m = s.run) ∧ t = s.emitted bs m)) := by
  cases i with
  | nop => obtain ⟨hl, h⟩ := (execNop_next_iff s t).1 h; exact ⟨hl, .inl ⟨rfl, h⟩⟩
  | start w h' =>
    obtain ⟨hl, hp, h⟩ := (execStart_next_iff w h' s t).1 h
    exact ⟨hl, .inr (.inl ⟨w, h', rfl, hp, h⟩)⟩
  | data x =>
    obtain ⟨hl, hp, h⟩ := (execData_next_iff x s t).1 h
    exact ⟨hl, .inr (.inr (.inl ⟨x, rfl, hp, h⟩))⟩
  | endEncode =>
    obtain ⟨hl, hp, h⟩ := (execEnd_next_iff s t).1 h
    exact ⟨hl, .inr (.inr (.inr (.inl ⟨rfl, hp, h⟩)))⟩
  | statusRead =>
    obtain ⟨hl, h⟩ := (execStatusRead_next_iff s t).1 h
    exact ⟨hl, .inr (.inr (.inr (.inr (.inl ⟨rfl, h⟩))))⟩
  | index idx =>
    obtain ⟨hl, bs, h⟩ := execIndex_next idx h
    exact ⟨hl, .inr (.inr (.inr (.inr (.inr ⟨by simp, by simp, by simp, bs, _, .inr rfl, h⟩))))⟩
  | diff rt gt bt =>
    obtain ⟨hl, bs, h⟩ := execDiff_next rt gt bt h
    exact ⟨hl, .inr (.inr (.inr (.inr (.inr ⟨by simp, by simp, by simp, bs, _, .inr rfl, h⟩))))⟩
  | luma g rt bt =>
    obtain ⟨hl, bs, h⟩ := execLuma_next g rt bt h
    exact ⟨hl, .inr (.inr (.inr (.inr (.inr ⟨by simp, by simp, by simp, bs, _, .inr rfl, h⟩))))⟩
  | runInterior n =>
    obtain ⟨hl, h⟩ := execRunInterior_next n h
    exact ⟨hl, .inr (.inr (.inr (.inr (.inr ⟨by simp, by simp, by simp, h⟩))))⟩
  | runFinal n =>
    obtain ⟨hl, h⟩ := execRunFinal_next n h
    exact ⟨hl, .inr (.inr (.inr (.inr (.inr ⟨by simp, by simp, by simp, h⟩))))⟩
  | rgb r g b =>
    obtain ⟨hl, h⟩ := (execRgb_next_iff r g b s t).1 h
    exact ⟨hl, .inr (.inr (.inr (.inr (.inr ⟨by simp, by simp, by simp, _, _, .inr rfl, h⟩))))⟩
  | rgbaReserved => exact absurd h (execRgbaReserved_not_next s t)
  | header w h' =>
    obtain ⟨hl, h⟩ := (execHeader_next_iff w h' s t).1 h
    exact ⟨hl, .inr (.inr (.inr (.inr (.inr ⟨by simp, by simp, by simp, _, _, .inr rfl, h⟩))))⟩
  | terminator =>
    obtain ⟨hl, h⟩ := (execTerminator_next_iff s t).1 h
    exact ⟨hl, .inr (.inr (.inr (.inr (.inr ⟨by simp, by simp, by simp, _, _, .inr rfl, h⟩))))⟩

/-! ## The step -/

/-- The step on a transfer that carries an instruction. -/
theorem step_of_decodes {s : State} {t : Transfer} {rest : List Transfer} {i : Instr} (h : s.Legal)
    (hp : s.port = t :: rest) (hd : decode blockConfig t = .ok i) :
    step s = settle { s with port := rest } (exec i { s with port := rest }) := by
  rw [step, State.guarded_of_legal h, fetch_cons hp, hd]
  simp

/-- The step on an illegal command word (R72, R192). -/
theorem step_of_illegalWord {s : State} {w : CmdWord} {rest : List Transfer} {e : DecodeError} (h : s.Legal)
    (hp : s.port = .command w :: rest) (hd : decode blockConfig (.command w) = .error e) :
    step s = .next (State.refuse { s with port := rest } .illegalWord) := by
  rw [step, State.guarded_of_legal h, fetch_cons hp, hd]
  rfl

/-- The step on a byte taken from the output port (R178). -/
theorem step_of_takeByte {s : State} {rest : List Transfer} (h : s.Legal) (hp : s.port = .takeByte :: rest) :
    step s = .next (deliver { s with port := rest }) := by
  rw [step, State.guarded_of_legal h, fetch_cons hp]
  rfl

/-- The step on a power-on reset (R210, R211). -/
theorem step_of_reset {s : State} {rest : List Transfer} (h : s.Legal) (hp : s.port = .reset :: rest) :
    step s = .next (powerOnReset { s with port := rest }) := by
  rw [step, State.guarded_of_legal h, fetch_cons hp]
  rfl

/-- The step with nothing pending (R203). -/
theorem step_of_idle {s : State} (h : s.Legal) (hp : s.port = []) : step s = .next s := by
  simp [step, State.guarded_of_legal h, fetch, hp]

end Sys2Proof.Machine
end

