-- ==== Sys2Proof/Tests/Slice0.lean ====
section
/-! SUPPORT. The model's own tests: expected values from spec 95 (the vector's id stands before each test) or written out
from the rules; and for every statement with hypotheses a state and operands that meet all of them. -/

namespace Sys2Proof.Tests

open Sys2Proof.Machine

/-! ## Helpers -/

/-- The state of a next outcome. -/
def nextOf : Host.Outcome State Fault Refusal → Option State
  | .next s => some s
  | _ => none

/-- The reason of a refused outcome. -/
def refusedOf : Host.Outcome State Fault Refusal → Option Refusal
  | .refused r => some r
  | _ => none

/-- `out` of a next outcome. -/
def outOf (o : Host.Outcome State Fault Refusal) : Option (List Byte) := (nextOf o).map State.out

/-- A state just after START 1, 1. -/
def fresh : State := { State.reset with phase := phaseStream, out := headerBytes 1 1 }

/-- A state in STREAM after the one pixel (r, g, b), with a pending run, its `out` emptied so that a test sees what is
emitted. -/
def after (r g b : Byte) (run : BitVec 6) : State :=
  ({ State.reset with phase := phaseStream, prev := some (opaquePixel r g b), run := run }).cacheWrite
    (pixelHash (opaquePixel r g b)) (opaquePixel r g b)

/-- The same with its header, and two bytes of the next pixel held: it has the invariant. -/
def mid : State := { after 5 5 5 62 with out := headerBytes 1 1, fragLen := 2, frag0 := 5, frag1 := 5 }

/-- A state after END. -/
def finished : State := { fresh with phase := phaseDone, out := headerBytes 1 1 ++ terminatorBytes }

/-- What a pixel emits after another one, with no run pending. -/
def emits (q p : Byte × Byte × Byte) : List Byte :=
  (encodePixel blockConfig (opaquePixel p.1 p.2.1 p.2.2) (after q.1 q.2.1 q.2.2 0)).out

/-! ## WellFormed -/

theorem test_wf_run_interior_61 : (Instr.runInterior 61).wf blockConfig = true := by decide
theorem test_illformed_run_interior_62 : (Instr.runInterior 62).wf blockConfig = false := by decide
theorem test_wf_run_final_62 : (Instr.runFinal 62).wf blockConfig = true := by decide
theorem test_illformed_run_final_0 : (Instr.runFinal 0).wf blockConfig = false := by decide
theorem test_illformed_run_final_63 : (Instr.runFinal 63).wf blockConfig = false := by decide
theorem test_wf_run_final_bias_one :
    (Instr.runFinal 0).wf (withParameters .decline 1) = true ∧
      (Instr.runFinal 62).wf (withParameters .decline 1) = false := by decide

/-! ## Decoding: words written out from R71, R80 to R87 -/

theorem test_decode_nop : decode blockConfig (.command 0x00000000000000000) = .ok .nop := by decide
theorem test_decode_nop_reserved : decode blockConfig (.command 0x00000000000000001) = .error .illegalWord := by decide
theorem test_decode_start :
    decode blockConfig (.command 0x1DEADBEEF01020304) = .ok (.start 0xDEADBEEF 0x01020304) := by decide
theorem test_decode_data : decode blockConfig (.command 0x200000000000000C8) = .ok (.data 200) := by decide
theorem test_decode_data_reserved : decode blockConfig (.command 0x20000000000000105) = .error .illegalWord := by decide
theorem test_decode_end : decode blockConfig (.command 0x30000000000000000) = .ok .endEncode := by decide
theorem test_decode_end_reserved : decode blockConfig (.command 0x38000000000000000) = .error .illegalWord := by decide
theorem test_decode_status : decode blockConfig .statusRead = .ok .statusRead := by decide
theorem test_decode_index : decode blockConfig (.item .operation [0b00010001]) = .ok (.index 17) := by decide
theorem test_decode_diff : decode blockConfig (.item .operation [0b01111000]) = .ok (.diff 3 2 0) := by decide
theorem test_decode_luma :
    decode blockConfig (.item .operation [0b10101000, 0b10100101]) = .ok (.luma 40 10 5) := by decide
theorem test_decode_run_interior :
    decode blockConfig (.item .operation [0b11111101]) = .ok (.runInterior 61) := by decide
theorem test_decode_run_final :
    decode blockConfig (.item .finalFlush [0b11000111]) = .ok (.runFinal 7) := by decide
theorem test_decode_rgb :
    decode blockConfig (.item .operation [0b11111110, 1, 2, 3]) = .ok (.rgb 1 2 3) := by decide
theorem test_decode_reserved : decode blockConfig (.item .operation [0b11111111]) = .ok .rgbaReserved := by decide
theorem test_decode_header :
    decode blockConfig (.item .header [0x71, 0x6F, 0x69, 0x66, 0, 0, 0, 70, 0, 0, 1, 2, 3, 1]) =
      .ok (.header 70 258) := by decide
theorem test_decode_terminator :
    decode blockConfig (.item .terminator [0, 0, 0, 0, 0, 0, 0, 1]) = .ok .terminator := by decide
theorem test_decode_rejects :
    decode blockConfig (.item .operation [0xFE, 1]) = .error .wrongLength ∧
    decode blockConfig (.item .finalFlush [0xC0]) = .error .notFinalFlush ∧
    decode blockConfig (.item .terminator [0, 0, 0, 0, 0, 0, 0, 2]) = .error .badTerminator ∧
    decode blockConfig (.item .header [0x71, 0x6F, 0x69, 0x67, 0, 0, 0, 1, 0, 0, 0, 1, 3, 1]) =
      .error .badHeader := by decide
theorem test_table_words :
    decodeTableWord 72 0x30000000000000000 = some .endEncode ∧ decodeTableWord 16 0xA8A5 = some (.luma 40 10 5) ∧
    decodeTableWord 32 0xFE010203 = some (.rgb 1 2 3) ∧ decodeTableWord 64 1 = some .terminator ∧
    decodeTableWord 112 0x716F6966000000010000000103_01 = some (.header 1 1) := by decide

/-! ## Host commands -/

/-- H2: START 0xDEADBEEF, 0x01020304. -/
theorem test_start_header :
    outOf (exec (.start 0xDEADBEEF 0x01020304) State.reset) =
      some [0x71, 0x6F, 0x69, 0x66, 0xDE, 0xAD, 0xBE, 0xEF, 1, 2, 3, 4, 3, 1] := by decide
/-- C2: START in STREAM. -/
theorem test_start_refused : refusedOf (exec (.start 2 2) fresh) = some .startWhileStreaming := by decide
/-- I1: the second byte of a pixel is held. -/
theorem test_data_held :
    (nextOf (exec (.data 2) { fresh with fragLen := 1, frag0 := 1 })).map (fun s => (s.fragLen, s.frag0, s.frag1)) =
      some (2, 1, 2) := by decide
/-- I2: the third byte completes the first pixel. -/
theorem test_data_completes :
    (nextOf (exec (.data 3) { fresh with fragLen := 2, frag0 := 1, frag1 := 2 })).map
      (fun s => (s.out.drop 14, s.fragLen, s.prev, s.cacheRead 23)) =
      some ([0xFE, 1, 2, 3], 0, some ⟨1, 2, 3, 255⟩, ⟨1, 2, 3, 255⟩) := by decide
/-- E4: run = 1 and two bytes held. -/
theorem test_end_drops_fragment :
    (nextOf (exec .endEncode { after 5 5 5 1 with fragLen := 2 })).map (fun s => (s.out, s.phase, s.fragLen)) =
      some ([0xC1, 0, 0, 0, 0, 0, 0, 0, 1], phaseDone, 0) := by decide
/-- E3: run = 62. -/
theorem test_end_flush_62 :
    outOf (exec .endEncode (after 5 5 5 62)) = some [0xFE, 0, 0, 0, 0, 0, 0, 0, 1] := by decide
/-- C10: STATUS in DONE. -/
theorem test_status_done : (nextOf (exec .statusRead finished)).map State.statusData = some (some 2) := by decide
/-- C7: NOP. -/
theorem test_nop : outOf (exec .nop fresh) = some (headerBytes 1 1) := by decide

/-! ## Stream items -/

/-- R80: INDEX of the slot that holds (5,5,5). -/
theorem test_index : outOf (exec (.index 0) (after 5 5 5 0)) = some [0x00] := by decide
/-- R51, R65: INDEX never hits a cleared slot, slot 0 with its equal hash among them. -/
theorem test_index_cleared : outOf (exec (.index 0) { State.reset with phase := phaseStream }) = some [] := by decide
/-- R91: DIFF +1, 0, -2. -/
theorem test_diff : outOf (exec (.diff 3 2 0) (after 50 50 50 0)) = some [0x78] := by decide
/-- R91: LUMA 8, 2, -3. -/
theorem test_luma : outOf (exec (.luma 40 10 5) (after 100 100 100 0)) = some [0xA8, 0xA5] := by decide
/-- R91: RUN 61. -/
theorem test_run_interior :
    (nextOf (exec (.runInterior 61) (after 5 5 5 62))).map (fun s => (s.out, s.run)) = some ([0xFD], 0) := by decide
/-- E2: the final flush of run = 7. -/
theorem test_run_final :
    (nextOf (exec (.runFinal 7) (after 5 5 5 7))).map (fun s => (s.out, s.run)) = some ([0xC7], 0) := by decide
/-- G2: payload bytes equal to tags. -/
theorem test_rgb : outOf (exec (.rgb 254 255 0) State.reset) = some [0xFE, 0xFE, 0xFF, 0x00] := by decide
theorem test_reserved : refusedOf (exec .rgbaReserved State.reset) = some .rgbaReserved := by decide
/-- S1. -/
theorem test_header :
    outOf (exec (.header 1 1) State.reset) = some [0x71, 0x6F, 0x69, 0x66, 0, 0, 0, 1, 0, 0, 0, 1, 3, 1] := by decide
/-- S2. -/
theorem test_terminator : outOf (exec .terminator State.reset) = some [0, 0, 0, 0, 0, 0, 0, 1] := by decide

/-! ## The pixel step -/

/-- F1, F2, F3, F4, F5, F9. -/
theorem test_diff_vectors :
    emits (50, 50, 50) (51, 50, 48) = [0x78] ∧ emits (10, 10, 10) (8, 8, 8) = [0x40] ∧
    emits (10, 10, 10) (11, 11, 11) = [0x7F] ∧ emits (255, 0, 0) (0, 0, 0) = [0x7A] ∧
    emits (0, 0, 0) (254, 0, 0) = [0x4A] ∧ emits (200, 50, 0) (199, 51, 255) = [0x5D] := by decide
/-- F6, F7, M1, M3, M4, M6, M8, M9, M10. -/
theorem test_luma_vectors :
    emits (10, 10, 10) (12, 10, 10) = [0xA0, 0xA8] ∧ emits (10, 10, 10) (7, 10, 10) = [0xA0, 0x58] ∧
    emits (0, 0, 0) (31, 31, 31) = [0xBF, 0x88] ∧ emits (100, 100, 100) (68, 68, 68) = [0x80, 0x88] ∧
    emits (100, 100, 100) (117, 110, 110) = [0xAA, 0xF8] ∧ emits (100, 100, 100) (102, 110, 110) = [0xAA, 0x08] ∧
    emits (250, 250, 250) (10, 10, 10) = [0xB0, 0x88] ∧ emits (0, 10, 0) (255, 5, 250) = [0x9B, 0xC7] ∧
    emits (100, 100, 100) (110, 108, 105) = [0xA8, 0xA5] := by decide
/-- M2, M5, M7, G3. -/
theorem test_rgb_vectors :
    emits (0, 0, 0) (32, 32, 32) = [0xFE, 0x20, 0x20, 0x20] ∧
    emits (100, 100, 100) (118, 110, 110) = [0xFE, 0x76, 0x6E, 0x6E] ∧
    emits (100, 100, 100) (101, 110, 110) = [0xFE, 0x65, 0x6E, 0x6E] ∧
    emits (100, 100, 100) (200, 50, 0) = [0xFE, 0xC8, 0x32, 0x00] := by decide
/-- U4: a run of 62 ended by a differing pixel. -/
theorem test_flush_by_difference :
    (encodePixel blockConfig (opaquePixel 6 5 5) (after 5 5 5 62)).out = [0xFD, 0x7A] := by decide
/-- U5: a run of 62 continued. -/
theorem test_flush_by_limit :
    let t := encodePixel blockConfig (opaquePixel 5 5 5) (after 5 5 5 62)
    t.out = [0xFD] ∧ t.run = 1 := by decide
/-- X3: INDEX before DIFF. -/
theorem test_index_before_diff :
    (encodePixel blockConfig (opaquePixel 10 10 10)
      (encodePixel blockConfig (opaquePixel 11 11 11) (after 10 10 10 0))).out = [0x7F, 0x0B] := by decide
/-- G1, G4, G5, G7: the first pixel under both policies. -/
theorem test_first_pixel_policies :
    (encodePixel blockConfig (opaquePixel 0 0 0) State.reset).out = [0xFE, 0, 0, 0] ∧
    (encodePixel (withParameters .std 0) (opaquePixel 1 0 0) State.reset).out = [0x7A] ∧
    (encodePixel (withParameters .std 0) (opaquePixel 20 20 20) State.reset).out = [0xB4, 0x88] ∧
    (encodePixel (withParameters .std 0) (opaquePixel 0 0 0) State.reset).out = [0x6A] := by decide
/-- E5: the final flush with FINAL_RUN_BIAS = 1. -/
theorem test_final_flush_bias_one :
    (finalFlush (withParameters .decline 1) (after 5 5 5 7)).out = [0xC6] := by decide
/-- 2.3: hashes. -/
theorem test_hash_vectors :
    pixelHash (opaquePixel 101 100 98) = 6 ∧ pixelHash (opaquePixel 200 0 0) = 13 ∧
    pixelHash (opaquePixel 199 51 255) = 2 ∧ pixelHash Pixel.cleared = 0 := by decide

/-! ## Steps and ports -/

/-- C6: an illegal END in IDLE is refused as an illegal word, and the mark is set. -/
theorem test_step_illegal_word :
    (nextOf (step { State.reset with port := [.command 0x30000000000000001] })).map
      (fun s => (s.phase, s.refusalMark, s.refusalReason, s.port)) =
      some (phaseIdle, true, some .illegalWord, []) := by decide
/-- C3: DATA in IDLE. -/
theorem test_step_data_in_idle :
    (nextOf (step { State.reset with port := [.command 0x20000000000000005, .statusRead] })).map
      (fun s => (s.fragLen, s.refusalReason, s.port)) =
      some (0, some .dataOutsideStream, [.statusRead]) := by decide
/-- R178: the first byte of the header is delivered. -/
theorem test_step_take_byte :
    (nextOf (step { fresh with port := [.takeByte] })).map (fun s => (s.received, s.delivered)) =
      some ([0x71], 1) := by decide
/-- R211: reset during an encode. -/
theorem test_step_reset :
    (nextOf (step { mid with port := [.reset], received := [0x71], refusalMark := true })).map
      (fun s => (s.phase, s.received, s.refusalMark, s.result)) = some (phaseIdle, [0x71], false, none) := by decide
/-- The word of a START on the port, run as the next step. -/
theorem test_step_fetch_word :
    (nextOf (step (State.reset.withFetchWord 72 0x10000000100000001))).map State.phase = some phaseStream := by decide
/-- R178, R194: with a buffer of 14 bytes that is full, DATA is held; a STATUS read never is. -/
theorem test_hold :
    held { blockConfig with outputCapacity := some 14 } (.data 1) fresh = true ∧
    held { blockConfig with outputCapacity := some 19 } (.data 1) fresh = false ∧
    held { blockConfig with outputCapacity := some 5 } .statusRead fresh = false := by decide

/-- R193: a faulted state is never final, in DONE either. -/
theorem test_faulted_has_no_result :
    ({ finished with run := 63 } : State).result = none ∧ finished.result = some finished.out := by decide
/-- R183: IMAGE. -/
theorem test_image :
    image blockConfig 1 1 [7] = [.command 0x10000000100000001, .command 0x20000000000000007, .command 0x30000000000000000] := by
  decide
/-- P2's stream by the reference encoder. -/
theorem test_reference_stream :
    (refStream .decline 0 1 1 [1, 2, 3, 9]).drop 14 = [0xFE, 1, 2, 3, 0, 0, 0, 0, 0, 0, 0, 1] := by decide

/-! ## The statements' hypotheses can be met -/

theorem fresh_inv : fresh.Inv where
  legal := by decide
  deliveredLe := by decide
  deliveredLast := by decide
  stream _ :=
    { runHasPrev := by decide
      prevCached := fun p h => by cases h
      headerFirst := ⟨1, 1, List.prefix_refl _⟩
      slots := fun i => .inl (by simp [State.cacheRead, fresh, State.reset]) }

/-- A state with the invariant and a next state. -/
theorem witness_StepKeepsInvariant :
    fresh.Inv ∧ step { fresh with port := [.takeByte] } =
      .next { fresh with delivered := 1, received := [0x71] } := ⟨fresh_inv, rfl⟩
theorem witness_StepRunsDecodedInstruction :
    mid.Legal ∧ decode blockConfig (encode blockConfig .nop) = .ok .nop ∧
    (exec .nop mid = .next mid) ∧
    decode blockConfig (encode blockConfig (.start 1 1)) = .ok (.start 1 1) ∧
    exec (.start 1 1) mid = .refused .startWhileStreaming ∧
    exec .rgbaReserved mid = .refused .rgbaReserved := ⟨by decide, by decide, rfl, by decide, rfl, rfl⟩
theorem witness_IdlePortKeepsState : State.reset.Legal ∧ State.reset.port = [] := by decide
theorem witness_RefusedCommandOnlyMarks :
    State.reset.Legal ∧ decode blockConfig (.command 0x00000000000000001) = .error .illegalWord ∧
    decode blockConfig (.command 0x30000000000000000) = .ok .endEncode ∧
    exec .endEncode { State.reset with port := [] } = .refused .endOutsideStream :=
  ⟨by decide, by decide, by decide, rfl⟩
theorem witness_RefusalMarkIsSticky :
    ({ fresh with refusalMark := true, port := [.statusRead] } : State).port.head? ≠ some .reset ∧
    (nextOf (step { fresh with refusalMark := true, port := [.statusRead] })).isSome = true := by decide
theorem witness_ChecksInOrder :
    ({ State.reset with phase := 3 } : State).faultOf = some .badPhase ∧
    (0 : BitVec 2) = 0 ∧ (1 : BitVec 64) ≠ 0 ∧ 256 ≤ (256 : BitVec 64).toNat ∧
    State.reset.Legal ∧ State.reset.phase ≠ phaseStream ∧ fresh.Legal ∧ fresh.phase = phaseStream := by decide
theorem witness_FaultedStateAlwaysFaults :
    ({ State.reset with phase := 3 } : State).phase = 3 ∧
    (({ State.reset with run := 63 } : State).phase ≠ 3 ∧ ({ State.reset with run := 63 } : State).run = 63) ∧
    (({ State.reset with fragLen := 3 } : State).phase ≠ 3 ∧ ({ State.reset with fragLen := 3 } : State).run ≠ 63 ∧
      ({ State.reset with fragLen := 3 } : State).fragLen = 3) := by decide
theorem witness_LegalStateNeverFaults : mid.Legal := by decide
theorem witness_TakenByteIsNextOfOut :
    fresh.Legal ∧ fresh.out[fresh.delivered]? = some 0x71 ∧
    State.reset.Legal ∧ State.reset.out.length ≤ State.reset.delivered := by decide
theorem witness_PowerOnResetAbandonsEncode :
    ({ mid with port := [.reset] } : State).Legal ∧ ({ mid with port := [.reset] } : State).port = [.reset] := by decide
/-- Every clause, at the first size that holds and the last that does not. -/
theorem witness_FiniteBufferHoldsCommand :
    decode { blockConfig with outputCapacity := some 18 } (encode blockConfig (.data 1)) = .ok (.data 1) ∧
    fresh.delivered < fresh.out.length ∧ 18 < fresh.out.length - fresh.delivered + 5 ∧
    fresh.out.length - fresh.delivered + 5 ≤ 19 ∧ (nextOf (exec (.data 1) { fresh with port := [] })).isSome = true ∧
    decode { blockConfig with outputCapacity := some 5 } .statusRead = .ok .statusRead ∧
    ∀ w, Transfer.statusRead ≠ .command w :=
  ⟨by decide, by decide, by decide, by decide, by decide, by decide, fun _ h => Transfer.noConfusion h⟩
theorem witness_DecodeEncodeAgree :
    (Instr.runInterior 61).wf blockConfig = true ∧ (Instr.runFinal 62).wf blockConfig = true := by decide
theorem witness_DecodedTransferIsItsEncoding :
    decode blockConfig (.item .operation [0xFF]) = .ok .rgbaReserved := by decide
theorem witness_NopHasNoEffect : finished.Legal := by decide
theorem witness_StartBeginsEncode :
    (finished.Legal ∧ finished.phase ≠ phaseStream) ∧ mid.Legal ∧ mid.phase = phaseStream := by decide
theorem witness_DataAcceptsByte :
    (fresh.Legal ∧ fresh.phase = phaseStream ∧ fresh.fragLen = 0) ∧
    ({ fresh with fragLen := 1 } : State).Legal ∧ (mid.Legal ∧ mid.phase = phaseStream ∧ mid.fragLen = 2) ∧
    finished.Legal ∧ finished.phase ≠ phaseStream := by decide
theorem witness_EndFinishesEncode :
    (mid.Legal ∧ mid.phase = phaseStream ∧ mid.run = 62) ∧ finished.Legal ∧ finished.phase ≠ phaseStream := by decide
theorem witness_StatusReadReturnsPhase :
    (State.reset.Legal ∧ State.reset.phase = phaseIdle) ∧ (mid.Legal ∧ mid.phase = phaseStream) ∧
    finished.Legal ∧ finished.phase = phaseDone := by decide
theorem witness_PhaseLegalityTable :
    (mid.Legal ∧ mid.phase = phaseStream) ∧ (State.reset.Legal ∧ State.reset.phase = phaseIdle) ∧
    finished.Legal ∧ finished.phase = phaseDone := by decide
theorem witness_IndexItemCompletes :
    (after 5 5 5 0).Legal ∧ pixelHash ((after 5 5 5 0).cacheRead 0) = 0 ∧ ((after 5 5 5 0).cacheRead 0).a = 255 := by
  decide
theorem witness_DiffItemCompletes : (after 5 5 5 0).Legal ∧ (after 5 5 5 0).prev = some (opaquePixel 5 5 5) := by decide
theorem witness_LumaItemCompletes : (after 0 0 0 0).Legal ∧ (after 0 0 0 0).prev = some (opaquePixel 0 0 0) := by decide
theorem witness_RunInteriorItemCompletes :
    (after 5 5 5 62).Legal ∧ (after 5 5 5 62).prev = some (opaquePixel 5 5 5) ∧
    (after 5 5 5 62).run.toNat = (61 : BitVec 6).toNat + 1 := by decide
theorem witness_RunFinalItemCompletes :
    (after 5 5 5 62).Legal ∧ (after 5 5 5 62).run ≠ 0 ∧ (after 5 5 5 62).run = 62 := by decide
theorem witness_RgbItemCompletes : State.reset.Legal := by decide
theorem witness_HeaderItemCompletes : State.reset.Legal := by decide
theorem witness_TerminatorItemCompletes : State.reset.Legal := by decide
theorem witness_RgbaReservedStops : State.reset.Legal := by decide
theorem witness_ItemsDeclineWithoutEffect :
    State.reset.Legal ∧ pixelHash (State.reset.cacheRead 1) ≠ 1 ∧ (State.reset.cacheRead 0).a ≠ 255 ∧
    State.reset.prev = none ∧ State.reset.run = 0 ∧
    (after 5 5 5 7).Legal ∧ (after 5 5 5 7).run.toNat ≠ (7 : BitVec 6).toNat + 1 ∧ (after 5 5 5 7).run ≠ 6 := by decide
theorem witness_ItemFrame :
    (nextOf (exec (.luma 40 10 5) (after 100 100 100 0))).isSome = true ∧
    (nextOf (exec (.index 0) (after 5 5 5 0))).isSome = true ∧
    (nextOf (exec (.diff 0 0 0) (after 5 5 5 0))).isSome = true ∧
    (nextOf (exec (.rgb 0 0 0) fresh)).isSome = true ∧ (nextOf (exec (.header 0 0) fresh)).isSome = true ∧
    (nextOf (exec .terminator fresh)).isSome = true ∧
    (nextOf (exec (.runInterior 61) (after 5 5 5 62))).isSome = true ∧
    (nextOf (exec (.runFinal 62) (after 5 5 5 62))).isSome = true := by decide
theorem witness_CommandFrame :
    (nextOf (exec .nop mid)).isSome = true ∧ (nextOf (exec .statusRead mid)).isSome = true ∧
    (nextOf (exec (.start 1 1) finished)).isSome = true ∧
    (nextOf (exec (.data 1) fresh)).isSome = true ∧ fresh.fragLen ≠ 2 ∧
    (nextOf (exec (.data 1) mid)).isSome = true ∧ mid.fragLen = 2 ∧
    (nextOf (exec .endEncode mid)).isSome = true := by decide
/-- A slot the completed pixel (5,5,1) does not hash to. -/
theorem witness_CacheWrittenOnlyByStartAndUpdate :
    (nextOf (exec (.data 1) mid)).isSome = true ∧ (0 : BitVec 6) ≠ pixelHash ⟨5, 5, 1, 255⟩ := by decide
theorem witness_OnlyStartAndEndWritePhase :
    (nextOf (exec (.data 1) mid)).isSome = true ∧ (nextOf (exec (.start 1 1) finished)).isSome = true ∧
    (nextOf (exec .endEncode mid)).isSome = true := by decide
theorem witness_OutputIsAppendOnly :
    (nextOf (exec .endEncode mid)).isSome = true ∧ (nextOf (exec (.start 1 1) finished)).isSome = true := by decide
theorem witness_EmissionBounds :
    (nextOf (exec (.start 1 1) finished)).isSome = true ∧ (nextOf (exec (.data 200) mid)).isSome = true ∧
    (nextOf (exec .endEncode mid)).isSome = true ∧ (nextOf (exec .nop mid)).isSome = true := by decide
theorem witness_PixelStepEmitsTableBytes : mid.Legal := by decide
theorem witness_PixelStepRunCounter : mid.Legal ∧ mid.run = 62 := by decide
/-- One pixel with another hash, and X2's with the same. -/
theorem witness_RecurringPixelIsIndexUnlessEvicted :
    fresh.Legal ∧ opaquePixel 0 0 0 ≠ opaquePixel 200 0 0 ∧
    pixelHash (opaquePixel 200 0 0) ≠ pixelHash (opaquePixel 0 0 0) ∧
    opaquePixel 0 0 0 ≠ opaquePixel 64 0 0 ∧
    pixelHash (opaquePixel 64 0 0) = pixelHash (opaquePixel 0 0 0) := by decide
/-- A run of 62 pending, none pending, and the first pixel of an encode. -/
theorem witness_NoReservedPatternEmitted :
    ((after 5 5 5 62).Legal ∧ (after 5 5 5 62).prev = some (opaquePixel 5 5 5) ∧ (opaquePixel 5 5 5).a = 255 ∧
      (after 5 5 5 62).run ≠ 0) ∧
    ((after 5 5 5 0).Legal ∧ (after 5 5 5 0).prev = some (opaquePixel 5 5 5)) ∧
    fresh.Legal ∧ fresh.prev = none := by decide
theorem witness_HashIsSumModSixtyFour : 6 ≤ 8 := by decide
theorem witness_DiffAcceptsSmallSignedDeltas : diffFits (opaquePixel 51 50 48) (opaquePixel 50 50 50) = true := by decide
theorem witness_LumaAcceptsGreenRelativeDeltas :
    lumaFits (opaquePixel 31 31 31) (opaquePixel 0 0 0) = true ∧
    lumaFits (opaquePixel 32 32 32) (opaquePixel 0 0 0) = false := by decide
theorem witness_FinalFlushEmitsUnbiasedCounter : fresh.run = 0 ∧ mid.run ≠ 0 ∧ mid.run = 62 := by decide
theorem witness_DataBytesRunPixelSteps : fresh.Legal ∧ fresh.phase = phaseStream ∧ fresh.fragLen = 0 := by decide
theorem witness_FirstPixelIsRgb : finished.Legal ∧ finished.phase ≠ phaseStream := by decide
theorem witness_EqualPixelsSplitIntoRuns : State.reset.Legal ∧ State.reset.phase ≠ phaseStream := by decide
theorem witness_ImageRunEmitsReferenceStream :
    ({ State.reset with port := image blockConfig 1 1 [1, 2, 3] } : State).Legal ∧
    ({ State.reset with port := image blockConfig 1 1 [1, 2, 3] } : State).phase ≠ phaseStream := by decide
theorem witness_StreamLengthBounds : finished.Legal ∧ finished.phase ≠ phaseStream := by decide
/-- Two states in IDLE that differ in every unspecified register, with a START pending. -/
theorem witness_UnspecifiedStateIsUnobservable :
    let s : State := { State.reset with port := [encode blockConfig (.start 1 1)] }
    let t : State :=
      { s with
        cache := Vector.replicate 64 ⟨1, 2, 3, 4⟩, prev := some Pixel.cleared, run := 5, fragLen := 1, frag0 := 9,
        frag1 := 9, out := [1] }
    s.Legal ∧ t.Legal ∧ s.Agree t ∧ fromHost (encode blockConfig (.start 1 1)) = true ∧
      s.port.head? ≠ some .takeByte ∧ (nextOf (step s)).isSome = true :=
  ⟨by decide, by decide,
    { phase := rfl, port := rfl, mark := ⟨rfl, rfl⟩, host := ⟨rfl, rfl⟩, stream := fun h => absurd h (by decide),
      frag := fun h => absurd h (by decide), out := fun h => absurd rfl h },
    by decide, by decide, by decide⟩
/-- The same with a byte taken in IDLE, where none waits. -/
theorem witness_UnspecifiedStateIsUnobservable_take :
    let s : State := { State.reset with port := [.takeByte] }
    let t : State := { s with run := 5, out := [1], delivered := 1 }
    s.Legal ∧ t.Legal ∧ s.Agree t ∧ s.nothingWaits ∧ t.nothingWaits ∧ (nextOf (step s)).isSome = true :=
  ⟨by decide, by decide,
    { phase := rfl, port := rfl, mark := ⟨rfl, rfl⟩, host := ⟨rfl, rfl⟩, stream := fun h => absurd h (by decide),
      frag := fun h => absurd h (by decide), out := fun h => absurd rfl h },
    Nat.le_refl 0, Nat.le_refl 1, by decide⟩
/-- A cleared slot against one with another alpha, under an opaque pixel. -/
theorem witness_ClearedSlotValueIsUnobservable :
    (opaquePixel 1 2 3).a = 255 ∧ ((⟨7, 7, 7, 0⟩ : Pixel)).a ≠ 255 ∧
    ({ fresh with cache := Vector.replicate 64 ⟨7, 7, 7, 0⟩ } : State).cacheRead 5 = ⟨7, 7, 7, 0⟩ ∧
    (fresh.cacheRead 5).a ≠ 255 := by decide
/-- A result, and each reason for none. -/
theorem witness_ResultOnlyOfLegalDone :
    (finished.Legal ∧ finished.phase = phaseDone ∧ finished.refusalMark = false) ∧
    fresh.phase ≠ phaseDone ∧ ({ finished with refusalMark := true } : State).refusalMark = true ∧
    ({ finished with run := 63 } : State).run = 63 ∧ ({ finished with fragLen := 3 } : State).fragLen = 3 := by decide

end Sys2Proof.Tests
end

section
/-! Proofs of the scope statements: what `settle` does with an outcome (spec 60 R192; log 7), which states have a result
(44 R177), and that what reset or START leaves unspecified is never seen (10 R31; 00 R15). -/

namespace Sys2Proof.Machine

/-! ## Settling an outcome -/

@[simp] theorem settle_next (s t : State) : settle s (.next t) = .next t := rfl

@[simp] theorem settle_fault (s : State) (f : Fault) : settle s (.fault f) = .fault f := rfl

/-- R192: the three phase refusals are recorded; every other refusal stands. -/
theorem settle_refused (s : State) (r : Refusal) :
    settle s (.refused r) =
      if r = .startWhileStreaming ∨ r = .dataOutsideStream ∨ r = .endOutsideStream then .next (s.refuse r)
      else .refused r := by
  cases r <;> simp [settle]

/-- Settles O4: `step_of_decodes` gives the step, and `settle` is taken apart by the outcome. -/
theorem stepRunsDecodedInstruction : Obligations.StepRunsDecodedInstruction := by
  intro s t rest i hl hp hd
  rw [step_of_decodes hl hp hd]
  refine ⟨fun u h => ?_, fun f h => ?_, fun r h => ?_⟩
  · rw [h, settle_next]
  · rw [h, settle_fault]
  · rw [h, settle_refused]
    rfl

/-! ## The result -/

theorem State.result_of_final {s : State} (hl : s.Legal) (hp : s.phase = phaseDone) (hm : s.refusalMark = false) :
    s.result = some s.out :=
  if_pos ⟨hl, hp, hm⟩

theorem State.result_eq_none_iff (s : State) :
    s.result = none ↔ ¬(s.Legal ∧ s.phase = phaseDone ∧ s.refusalMark = false) := by
  simp [State.result, State.Legal]

/-- Settles O58: a result is had exactly by a legal, unmarked state in DONE, and each reason given rules one of these
out (`State.legal_iff` for the registers). -/
theorem resultOnlyOfLegalDone : Obligations.ResultOnlyOfLegalDone := by
  intro s
  refine ⟨State.result_of_final, fun h => (State.result_eq_none_iff s).2 ?_⟩
  rintro ⟨hl, hdone, hmark⟩
  obtain ⟨hphase, hrun, hfrag⟩ := (State.legal_iff s).1 hl
  rcases h with h | h | h | h | h
  · exact h hdone
  · simp [hmark] at h
  · exact hphase h
  · exact hrun h
  · exact hfrag h

/-! ## The fields that a pixel step does not read

The held bytes and the model's counter of free values are no input of the engine: an operation on a state with other
values there answers the same, with those values left standing. -/

/-- The state with other held bytes and another counter of free values. -/
def State.withUnread (s : State) (a b : Byte) (d : Nat) : State := { s with frag0 := a, frag1 := b, draws := d }

section
variable (c : Config) (p : Pixel) (s : State) (a b : Byte) (d : Nat)

theorem opRun_withUnread :
    opRun c p (s.withUnread a b d) = Prod.map id (·.withUnread a b d) (opRun c p s) := by
  cases h : s.prev with
  | none => rw [opRun_of_prev_none c p h, opRun_of_prev_none c p (s := s.withUnread a b d) h]; rfl
  | some q => rw [opRun_of_prev_some c p q h, opRun_of_prev_some c p q (s := s.withUnread a b d) h]; rfl

theorem opIndex_withUnread :
    opIndex c p (s.withUnread a b d) = Prod.map id (·.withUnread a b d) (opIndex c p s) := by
  have h : indexHit (s.withUnread a b d) p = indexHit s p := rfl
  unfold opIndex
  rw [h]
  split <;> rfl

theorem opDiff_withUnread :
    opDiff c p (s.withUnread a b d) = Prod.map id (·.withUnread a b d) (opDiff c p s) := by
  have h : deltaRef c (s.withUnread a b d) = deltaRef c s := rfl
  unfold opDiff
  rw [h]
  split
  · rfl
  · split <;> rfl

theorem opLuma_withUnread :
    opLuma c p (s.withUnread a b d) = Prod.map id (·.withUnread a b d) (opLuma c p s) := by
  have h : deltaRef c (s.withUnread a b d) = deltaRef c s := rfl
  unfold opLuma
  rw [h]
  split
  · rfl
  · split <;> rfl

theorem opRgb_withUnread :
    opRgb c p (s.withUnread a b d) = Prod.map id (·.withUnread a b d) (opRgb c p s) := rfl

end

/-- A chain commutes with a change of state that both its parts commute with. -/
theorem orElseTry_map {f : State → State} {next : State → Bool × State} (r : Bool × State)
    (h : ∀ s, next (f s) = Prod.map id f (next s)) :
    orElseTry (Prod.map id f r) next = Prod.map id f (orElseTry r next) := by
  unfold orElseTry
  cases hr : r.1
  · simp [hr, h]
  · simp [hr]

theorem encodePixel_withUnread (c : Config) (p : Pixel) (s : State) (a b : Byte) (d : Nat) :
    encodePixel c p (s.withUnread a b d) = (encodePixel c p s).withUnread a b d := by
  have h : selectOperation c p (s.withUnread a b d) =
      Prod.map id (·.withUnread a b d) (selectOperation c p s) := by
    unfold selectOperation
    rw [opRun_withUnread, orElseTry_map _ (opIndex_withUnread c p · a b d),
      orElseTry_map _ (opDiff_withUnread c p · a b d), orElseTry_map _ (opLuma_withUnread c p · a b d),
      orElseTry_map _ (opRgb_withUnread c p · a b d)]
  unfold encodePixel
  rw [h]
  rfl

@[simp] theorem encodePixel_fragLen (c : Config) (p : Pixel) (s : State) : (encodePixel c p s).fragLen = s.fragLen := by
  obtain ⟨bs, n, h⟩ := encodePixel_shape c p s
  rw [h]
  rfl

/-! ## The pixel input by the bytes held (R110) -/

theorem State.Legal.fragLen_cases {s : State} (h : s.Legal) : s.fragLen = 0 ∨ s.fragLen = 1 ∨ s.fragLen = 2 := by
  have key : ∀ n : BitVec 2, n ≠ 3 → n = 0 ∨ n = 1 ∨ n = 2 := by decide
  obtain ⟨-, -, hfrag⟩ := (State.legal_iff s).1 h
  exact key _ hfrag

theorem acceptByte_of_fragLen_zero {c : Config} {x : Byte} {s : State} (h : s.fragLen = 0) :
    acceptByte c x s = { s with frag0 := x, fragLen := 1 } := by
  simp [acceptByte, h, State.setFrag, State.setFragLen]

theorem acceptByte_of_fragLen_one {c : Config} {x : Byte} {s : State} (h : s.fragLen = 1) :
    acceptByte c x s = { s with frag1 := x, fragLen := 2 } := by
  simp [acceptByte, h, State.setFrag, State.setFragLen]

theorem acceptByte_of_fragLen_two {c : Config} {x : Byte} {s : State} (h : s.fragLen = 2) :
    acceptByte c x s = encodePixel c (opaquePixel s.frag0 s.frag1 x) (s.setFragLen 0) := by
  simp [acceptByte, h]

/-! ## Agreeing states -/

namespace State.Agree

variable {s t : State}

theorem refl (s : State) : s.Agree s :=
  { phase := rfl, port := rfl, mark := ⟨rfl, rfl⟩, host := ⟨rfl, rfl⟩, stream := fun _ => ⟨rfl, rfl, rfl, rfl⟩,
    frag := fun _ => ⟨fun _ => rfl, fun _ => rfl⟩, out := fun _ => ⟨rfl, rfl⟩ }

/-- The port is no input of the agreement but for being the same. -/
theorem withPort (h : s.Agree t) (rest : List Transfer) :
    State.Agree { s with port := rest } { t with port := rest } :=
  { h with port := rfl }

theorem refuse (h : s.Agree t) (r : Refusal) : (s.refuse r).Agree (t.refuse r) :=
  { h with mark := ⟨rfl, rfl⟩ }

/-- R176: agreeing states are in the same phase, so they return the same STATUS. -/
theorem returnStatus (h : s.Agree t) : (s.returnStatus s.status).Agree (t.returnStatus t.status) :=
  { h with host := ⟨by simp [State.status, h.phase], h.host.2⟩ }

/-- Only the bytes that are held need to be the same. -/
theorem withUnread {a b : Byte} (h0 : 1 ≤ s.fragLen → s.frag0 = a) (h1 : 2 ≤ s.fragLen → s.frag1 = b) (d : Nat) :
    s.Agree (s.withUnread a b d) :=
  { refl s with frag := fun _ => ⟨h0, h1⟩ }

/-- With no byte held, neither byte is compared. -/
theorem withUnread_of_fragLen_zero (h : s.fragLen = 0) (a b : Byte) (d : Nat) : s.Agree (s.withUnread a b d) :=
  withUnread (by simp [h]) (by simp [h]) d

/-- In STREAM agreeing states differ in the held bytes and the counter of free values at most. -/
theorem eq_withUnread (h : s.Agree t) (hs : s.phase = phaseStream) : t = s.withUnread t.frag0 t.frag1 t.draws := by
  obtain ⟨hphase, hport, ⟨hmark, hreason⟩, ⟨hstatus, hreceived⟩, hstream, -, hout⟩ := h
  obtain ⟨hcache, hprev, hrun, hfragLen⟩ := hstream hs
  obtain ⟨hout, hdelivered⟩ := hout (by rw [hs]; decide)
  cases t
  simp_all [State.withUnread]

/-- R171, R210: START writes every register that STREAM compares, and holds no byte. -/
theorem startEncode (h : s.Agree t) (w k : Word32) :
    (startEncode blockConfig w k s).Agree (startEncode blockConfig w k t) := by
  rw [startEncode_eq, startEncode_eq]
  exact
    { phase := rfl, port := h.port, mark := h.mark, host := h.host, stream := fun _ => ⟨rfl, rfl, rfl, rfl⟩,
      frag := fun _ => ⟨by simp, by simp⟩, out := fun _ => ⟨rfl, rfl⟩ }

/-- R164: END reads the run counter and `out` alone, and leaves STREAM. -/
theorem finishEncode (h : s.Agree t) (hs : s.phase = phaseStream) :
    (finishEncode blockConfig s).Agree (finishEncode blockConfig t) := by
  rw [h.eq_withUnread hs, finishEncode_eq, finishEncode_eq]
  exact withUnread_of_fragLen_zero rfl _ _ _

/-- R110: a byte is held beside bytes that agree, or completes a pixel whose three bytes agree. -/
theorem acceptByte (h : s.Agree t) (hl : s.Legal) (hs : s.phase = phaseStream) (x : Byte) :
    (acceptByte blockConfig x s).Agree (acceptByte blockConfig x t) := by
  obtain ⟨hfrag0, hfrag1⟩ := h.frag hs
  rw [h.eq_withUnread hs]
  have hlen : (s.withUnread t.frag0 t.frag1 t.draws).fragLen = s.fragLen := rfl
  rcases hl.fragLen_cases with hn | hn | hn
  · rw [acceptByte_of_fragLen_zero hn, acceptByte_of_fragLen_zero (hlen.trans hn)]
    exact withUnread (fun _ => rfl) (by simp) _
  · rw [acceptByte_of_fragLen_one hn, acceptByte_of_fragLen_one (hlen.trans hn)]
    exact withUnread (s := { s with frag1 := x, fragLen := 2 }) (fun _ => hfrag0 (by simp [hn])) (fun _ => rfl) _
  · rw [acceptByte_of_fragLen_two hn, acceptByte_of_fragLen_two (hlen.trans hn)]
    change State.Agree _ (encodePixel _ (opaquePixel t.frag0 t.frag1 x) ((s.setFragLen 0).withUnread _ _ _))
    rw [← hfrag0 (by simp [hn]), ← hfrag1 (by simp [hn]), encodePixel_withUnread]
    exact withUnread_of_fragLen_zero (encodePixel_fragLen _ _ _) _ _ _

/-- R178: outside IDLE the same byte is next in both; in IDLE none waits. -/
theorem deliver (h : s.Agree t) (hidle : s.phase = phaseIdle → s.nothingWaits ∧ t.nothingWaits) :
    (deliver s).Agree (deliver t) := by
  by_cases hp : s.phase = phaseIdle
  · obtain ⟨hs, ht⟩ := hidle hp
    rwa [deliver_of_empty (List.getElem?_eq_none hs), deliver_of_empty (List.getElem?_eq_none ht)]
  · obtain ⟨hout, hdelivered⟩ := h.out hp
    cases hb : s.out[s.delivered]? with
    | none => rwa [deliver_of_empty hb, deliver_of_empty (by rwa [← hout, ← hdelivered])]
    | some b =>
      rw [deliver_of_waiting hb, deliver_of_waiting (b := b) (by rwa [← hout, ← hdelivered])]
      exact { h with host := ⟨h.host.1, by simp [h.host.2]⟩, out := fun _ => ⟨hout, by simp [hdelivered]⟩ }

/-- R210, R211: a reset leaves what is the host's, which agrees; the counter of free values is not compared. -/
theorem powerOnReset (h : s.Agree t) : (powerOnReset s).Agree (powerOnReset t) :=
  { refl (Machine.powerOnReset s) with port := h.port, host := h.host }

end State.Agree

/-! ## Agreeing outcomes -/

/-- Two outcomes that agree: next states that do, or one refusal. -/
inductive OutcomesAgree : Host.Outcome State Fault Refusal → Host.Outcome State Fault Refusal → Prop where
  | next {s t : State} (h : s.Agree t) : OutcomesAgree (.next s) (.next t)
  | refused (r : Refusal) : OutcomesAgree (.refused r) (.refused r)

/-- A next state has a counterpart in an agreeing outcome. -/
theorem OutcomesAgree.exists_next {s' : State} {o : Host.Outcome State Fault Refusal}
    (h : OutcomesAgree (.next s') o) : ∃ t', o = .next t' ∧ s'.Agree t' := by
  cases h with
  | next h => exact ⟨_, rfl, h⟩

theorem OutcomesAgree.settle {s t : State} {o o' : Host.Outcome State Fault Refusal} (hst : s.Agree t)
    (h : OutcomesAgree o o') : OutcomesAgree (settle s o) (settle t o') := by
  cases h with
  | next h => exact .next h
  | refused r =>
    rw [settle_refused, settle_refused]
    split
    · exact .next (hst.refuse r)
    · exact .refused r

/-- The instructions that come by the command port. -/
theorem decodeCommand_ok {w : CmdWord} {i : Instr} (h : decodeCommand w = .ok i) :
    i = .nop ∨ (∃ a b, i = .start a b) ∨ (∃ x, i = .data x) ∨ i = .endEncode := by
  simp only [decodeCommand] at h
  split_ifs at h <;> cases h <;> simp

section
variable {s t : State} (hs : s.Legal) (ht : t.Legal) (h : s.Agree t)
include hs ht h

theorem execNop_agree : OutcomesAgree (execNop s) (execNop t) := by
  rw [execNop, execNop, State.guarded_of_legal hs, State.guarded_of_legal ht]
  exact .next h

theorem execStart_agree (w k : Word32) : OutcomesAgree (execStart w k s) (execStart w k t) := by
  rw [execStart, execStart, State.guarded_of_legal hs, State.guarded_of_legal ht, ← h.phase]
  split
  · exact .refused _
  · exact .next (h.startEncode w k)

theorem execData_agree (x : Byte) : OutcomesAgree (execData x s) (execData x t) := by
  rw [execData, execData, State.guarded_of_legal hs, State.guarded_of_legal ht, ← h.phase]
  split
  · exact .refused _
  · next hp => exact .next (h.acceptByte hs (not_not.1 hp) x)

theorem execEnd_agree : OutcomesAgree (execEnd s) (execEnd t) := by
  rw [execEnd, execEnd, State.guarded_of_legal hs, State.guarded_of_legal ht, ← h.phase]
  split
  · exact .refused _
  · next hp => exact .next (h.finishEncode (not_not.1 hp))

theorem execStatusRead_agree : OutcomesAgree (execStatusRead s) (execStatusRead t) := by
  rw [execStatusRead, execStatusRead, State.guarded_of_legal hs, State.guarded_of_legal ht]
  exact .next h.returnStatus

/-- R170: what the host's command and status ports carry has agreeing outcomes in agreeing states. -/
theorem exec_agree {x : Transfer} {i : Instr} (hx : fromHost x = true) (hd : decode blockConfig x = .ok i) :
    OutcomesAgree (exec i s) (exec i t) := by
  cases x with
  | command w =>
    obtain rfl | ⟨a, b, rfl⟩ | ⟨y, rfl⟩ | rfl := decodeCommand_ok hd
    · exact execNop_agree hs ht h
    · exact execStart_agree hs ht h a b
    · exact execData_agree hs ht h y
    · exact execEnd_agree hs ht h
  | statusRead => cases hd; exact execStatusRead_agree hs ht h
  | item pos bytes => exact absurd hx (by simp [fromHost])
  | takeByte => cases hd
  | reset => cases hd

/-- The step of two agreeing states on a transfer of the host that carries an instruction. -/
theorem step_agree_of_decodes {x : Transfer} {rest : List Transfer} {i : Instr} (hp : s.port = x :: rest)
    (hx : fromHost x = true) (hd : decode blockConfig x = .ok i) : OutcomesAgree (step s) (step t) := by
  rw [step_of_decodes hs hp hd, step_of_decodes ht (h.port ▸ hp) hd]
  have hrest := h.withPort rest
  exact (exec_agree (s := { s with port := rest }) (t := { t with port := rest }) hs ht hrest hx hd).settle hrest

/-- One step of two agreeing states, by the transfer that is next. -/
theorem step_agree (hhost : ∀ x, s.port.head? = some x → fromHost x = true)
    (hidle : s.phase = phaseIdle → s.port.head? = some .takeByte → s.nothingWaits ∧ t.nothingWaits) :
    OutcomesAgree (step s) (step t) := by
  cases hp : s.port with
  | nil =>
    rw [step_of_idle hs hp, step_of_idle ht (h.port ▸ hp)]
    exact .next h
  | cons x rest =>
    have hx : fromHost x = true := hhost x (by simp [hp])
    have hpt : t.port = x :: rest := h.port ▸ hp
    have hrest := h.withPort rest
    cases x with
    | command w =>
      cases hd : decode blockConfig (.command w) with
      | ok i => exact step_agree_of_decodes hs ht h hp hx hd
      | error e =>
        rw [step_of_illegalWord hs hp hd, step_of_illegalWord ht hpt hd]
        exact .next (hrest.refuse _)
    | statusRead => exact step_agree_of_decodes hs ht h hp hx rfl
    | item pos bytes => exact absurd hx (by simp [fromHost])
    | takeByte =>
      rw [step_of_takeByte hs hp, step_of_takeByte ht hpt]
      exact .next (hrest.deliver fun hi => hidle hi (by simp [hp]))
    | reset =>
      rw [step_of_reset hs hp, step_of_reset ht hpt]
      exact .next hrest.powerOnReset

end

/-- Settles O56: agreeing states have agreeing outcomes (`step_agree`), transfer by transfer. -/
theorem unspecifiedStateIsUnobservable : Obligations.UnspecifiedStateIsUnobservable := by
  intro s t s' hs ht h hhost hidle hstep
  have hagree := step_agree hs ht h hhost hidle
  rw [hstep] at hagree
  exact hagree.exists_next

end Sys2Proof.Machine
end

section
/-! Rules about the state's operations: what appending bytes, a pixel step and the pixel input leave in each register
(spec 41 R110; 42 R120 to R125, R140), and the run counter after a pixel step. -/

namespace Sys2Proof.Machine

/-! ## Bytes appended to `out` -/

section
variable (s : State) (bs : List Byte) (m : BitVec 6)

@[simp] theorem State.emitted_phase : (s.emitted bs m).phase = s.phase := rfl
@[simp] theorem State.emitted_cache : (s.emitted bs m).cache = s.cache := rfl
@[simp] theorem State.emitted_prev : (s.emitted bs m).prev = s.prev := rfl
@[simp] theorem State.emitted_run : (s.emitted bs m).run = m := rfl
@[simp] theorem State.emitted_fragLen : (s.emitted bs m).fragLen = s.fragLen := rfl
@[simp] theorem State.emitted_out : (s.emitted bs m).out = s.out ++ bs := rfl
@[simp] theorem State.emitted_delivered : (s.emitted bs m).delivered = s.delivered := rfl
@[simp] theorem State.emitted_received : (s.emitted bs m).received = s.received := rfl
@[simp] theorem State.emitted_cacheRead (k : BitVec 6) : (s.emitted bs m).cacheRead k = s.cacheRead k := rfl

/-- Nothing but `out`, which grows, and the run counter differs. -/
theorem State.emitted_frame :
    s.out <+: (s.emitted bs m).out ∧ s.emitted bs m = { s with out := (s.emitted bs m).out, run := m } :=
  ⟨List.prefix_append _ _, rfl⟩

end

/-! ## The pixel step -/

section
variable (c : Config) (p : Pixel) (s : State)

@[simp] theorem encodePixel_phase : (encodePixel c p s).phase = s.phase := by
  obtain ⟨bs, n, h⟩ := encodePixel_shape c p s
  simp [h]

@[simp] theorem encodePixel_prev : (encodePixel c p s).prev = some p := by
  obtain ⟨bs, n, h⟩ := encodePixel_shape c p s
  simp [h]

@[simp] theorem encodePixel_delivered : (encodePixel c p s).delivered = s.delivered := by
  obtain ⟨bs, n, h⟩ := encodePixel_shape c p s
  simp [h]

@[simp] theorem encodePixel_received : (encodePixel c p s).received = s.received := by
  obtain ⟨bs, n, h⟩ := encodePixel_shape c p s
  simp [h]

theorem prefix_encodePixel_out : s.out <+: (encodePixel c p s).out := by
  obtain ⟨bs, n, h⟩ := encodePixel_shape c p s
  simp [h]

/-- R140: the update writes the slot the pixel hashes to, and no other. -/
theorem encodePixel_cacheRead (k : BitVec 6) :
    (encodePixel c p s).cacheRead k = if k = pixelHash p then p else s.cacheRead k := by
  obtain ⟨bs, n, h⟩ := encodePixel_shape c p s
  simp [h, State.cacheRead_cacheWrite]

end

/-! ## The run counter after a pixel step -/

/-- R124: a continuation flushes where the counter has reached `RUN_MAX`. -/
theorem flushDue_self_iff (s : State) (p : Pixel) : flushDue s p p = true ↔ s.run = runMax := by
  simp only [flushDue, ne_eq, not_true, decide_false, Bool.false_or, Bool.and_eq_true, decide_eq_true_eq]
  exact and_iff_left_of_imp fun h => h ▸ by decide

/-- R124: a differing pixel flushes where a run is pending. -/
theorem flushDue_of_ne {p q : Pixel} (s : State) (h : p ≠ q) : flushDue s p q = true ↔ s.run ≠ 0 := by
  simp [flushDue, h]

theorem State.Legal.run_le {s : State} (h : s.Legal) : s.run.toNat ≤ 62 := by
  obtain ⟨-, hrun, -⟩ := (State.legal_iff s).1 h
  bv_omega

theorem refRun_le {prev : Option Pixel} {run : Nat} {p : Pixel} (h : run ≤ 62) : refRun prev run p ≤ 62 := by
  unfold refRun
  split_ifs <;> omega

/-- R124, R125, R126: RUN leaves the counter that the reference gives. -/
theorem opRun_run_toNat (c : Config) (p : Pixel) {s : State} (hl : s.Legal) :
    (opRun c p s).2.run.toNat = refRun s.prev s.run.toNat p := by
  have hle := hl.run_le
  cases hprev : s.prev with
  | none => simp [opRun_of_prev_none c p hprev, refRun]
  | some q =>
    rw [opRun_of_prev_some c p q hprev, State.emitted_run]
    by_cases hpq : p = q
    · subst hpq
      have hmax : s.run = runMax ↔ s.run.toNat = 62 := by simp [runMax, BitVec.toNat_eq]
      simp only [refRun, flushDue_self_iff, if_true, hmax]
      split_ifs with h62
      · rfl
      · bv_omega
    · have hqp : q ≠ p := Ne.symm hpq
      simp only [refRun, flushDue_of_ne s hpq, hpq, hqp, Option.some.injEq, reduceCtorEq, if_false]
      split_ifs with h0
      · rfl
      · simp [not_not.1 h0]

theorem encodePixel_run_toNat (c : Config) (p : Pixel) {s : State} (hl : s.Legal) :
    (encodePixel c p s).run.toNat = refRun s.prev s.run.toNat p := by
  rw [encodePixel_run, opRun_run_toNat c p hl]

theorem encodePixel_run_le (c : Config) (p : Pixel) {s : State} (hl : s.Legal) :
    (encodePixel c p s).run.toNat ≤ 62 := by
  rw [encodePixel_run_toNat c p hl]
  exact refRun_le hl.run_le

/-- A pixel step keeps the registers legal: only the run counter changes of the three that R193 checks. -/
theorem encodePixel_legal (c : Config) (p : Pixel) {s : State} (hl : s.Legal) : (encodePixel c p s).Legal := by
  obtain ⟨hphase, -, hfrag⟩ := (State.legal_iff s).1 hl
  have hrun := encodePixel_run_le c p hl
  refine (State.legal_iff _).2 ⟨by simpa using hphase, fun h => ?_, by simpa using hfrag⟩
  simp [h] at hrun

/-- Settles O41: of the chain only RUN writes the counter, by `opRun_run_toNat`, and `refRun_le` bounds it. -/
theorem pixelStepRunCounter : Obligations.PixelStepRunCounter := by
  intro pol bias s p hl
  exact ⟨encodePixel_run_toNat _ p hl, encodePixel_run_le _ p hl⟩

/-! ## The pixel input -/

section
variable (c : Config) (x : Byte) {s : State} (hl : s.Legal)
include hl

/-- R110: a byte, held or completing a pixel, leaves the phase and the port's position; `out` grows. -/
theorem acceptByte_frame :
    (acceptByte c x s).phase = s.phase ∧ (acceptByte c x s).delivered = s.delivered ∧
    (acceptByte c x s).received = s.received ∧ s.out <+: (acceptByte c x s).out := by
  rcases hl.fragLen_cases with hn | hn | hn
  · rw [acceptByte_of_fragLen_zero hn]
    exact ⟨rfl, rfl, rfl, List.prefix_refl _⟩
  · rw [acceptByte_of_fragLen_one hn]
    exact ⟨rfl, rfl, rfl, List.prefix_refl _⟩
  · rw [acceptByte_of_fragLen_two hn]
    exact ⟨encodePixel_phase c _ _, encodePixel_delivered c _ _, encodePixel_received c _ _,
      prefix_encodePixel_out c _ (s.setFragLen 0)⟩

/-- R110, R140: a byte leaves every slot but the one of the pixel it completes. -/
theorem acceptByte_cacheRead {k : BitVec 6}
    (hk : s.fragLen = 2 → k ≠ pixelHash (opaquePixel s.frag0 s.frag1 x)) :
    (acceptByte c x s).cacheRead k = s.cacheRead k := by
  rcases hl.fragLen_cases with hn | hn | hn
  · rw [acceptByte_of_fragLen_zero hn]; rfl
  · rw [acceptByte_of_fragLen_one hn]; rfl
  · rw [acceptByte_of_fragLen_two hn, encodePixel_cacheRead, if_neg (hk hn), State.setFragLen_cacheRead]

theorem acceptByte_legal : (acceptByte c x s).Legal := by
  have hset (n : BitVec 2) (hn : n ≠ 3) : (s.setFragLen n).Legal := by
    obtain ⟨hphase, hrun, -⟩ := (State.legal_iff s).1 hl
    exact (State.legal_iff _).2 ⟨hphase, hrun, hn⟩
  rcases hl.fragLen_cases with hn | hn | hn
  · rw [acceptByte_of_fragLen_zero hn]
    exact hset 1 (by decide)
  · rw [acceptByte_of_fragLen_one hn]
    exact hset 2 (by decide)
  · rw [acceptByte_of_fragLen_two hn]
    exact encodePixel_legal c _ (hset 0 (by decide))

end

end Sys2Proof.Machine
end

section
/-! Proofs of the statements about what an instruction leaves unchanged: the phase (spec 10 R21), the cache (R22), `out`
(R26), and the frame of the stream items (30 R80 to R87); and END's whole effect (43 R160, R164; 44 R175). -/

namespace Sys2Proof.Machine

/-- Settles O37: `exec_next_cases` lists the next states; START's and END's give the phase they set. -/
theorem onlyStartAndEndWritePhase : Obligations.OnlyStartAndEndWritePhase := by
  intro i s t h
  obtain ⟨hl, ⟨rfl, rfl⟩ | ⟨w, k, rfl, -, rfl⟩ | ⟨x, rfl, -, rfl⟩ | ⟨rfl, -, rfl⟩ | ⟨rfl, rfl⟩ |
    ⟨hend, hstart, -, bs, m, -, rfl⟩⟩ := exec_next_cases h
  · simp
  · simp [startEncode_eq]
  · obtain ⟨hphase, -⟩ := acceptByte_frame blockConfig x hl
    simp [hphase]
  · simp [finishEncode_eq]
  · simp
  · simp [hend, hstart]

/-- Settles O36: of the next states in `exec_next_cases` only START's and a completed pixel's write the cache, and the
pixel writes one slot (`acceptByte_cacheRead`). -/
theorem cacheWrittenOnlyByStartAndUpdate : Obligations.CacheWrittenOnlyByStartAndUpdate := by
  intro i s t k h hstart hdata
  obtain ⟨hl, ⟨-, rfl⟩ | ⟨w, h', rfl, -⟩ | ⟨x, rfl, -, rfl⟩ | ⟨-, -, rfl⟩ | ⟨-, rfl⟩ | ⟨-, -, -, bs, m, -, rfl⟩⟩ :=
    exec_next_cases h
  · rfl
  · exact absurd rfl (hstart w h')
  · exact acceptByte_cacheRead _ x hl (hdata x rfl)
  · rw [finishEncode_eq]; rfl
  · rfl
  · rfl

/-! ## `out` -/

/-- R53: a byte of a word, as integer division gives it. -/
theorem extractByte_eq_byteOf (w : Word32) (k : Nat) : w.extractLsb' k 8 = byteOf (w.toNat / 2 ^ k) := by
  have hdiv : (w.toNat : Int) / 2 ^ k = (w.toNat / 2 ^ k : Nat) := by push_cast; rfl
  rw [byteOf, hdiv, BitVec.ofInt_natCast, ← Nat.shiftRight_eq_div_pow]
  rfl

/-- R86: the packed header is the reference's, written in integer arithmetic. -/
theorem headerBytes_eq_refHeader (w h : Word32) : headerBytes w h = refHeader w h := by
  simp [headerBytes, refHeader, bigEndian32, extractByte_eq_byteOf, magicBytes, channelsByte, colorspaceByte]

/-- Settles O38: by `exec_next_cases` every next state but START's appends, and START's is the header. -/
theorem outputIsAppendOnly : Obligations.OutputIsAppendOnly := by
  intro i s t h
  obtain ⟨hl, ⟨rfl, rfl⟩ | ⟨w, k, rfl, -, rfl⟩ | ⟨x, rfl, -, rfl⟩ | ⟨rfl, -, rfl⟩ | ⟨rfl, rfl⟩ |
    ⟨-, hstart, -, bs, m, -, rfl⟩⟩ := exec_next_cases h
  · simp
  · simp [startEncode_eq, headerBytes_eq_refHeader]
  · obtain ⟨-, -, -, hout⟩ := acceptByte_frame blockConfig x hl
    simp [hout]
  · simp [finishEncode_eq]
  · simp
  · simp [hstart]

/-! ## The stream items -/

/-- Settles O34: each item's next state is `State.emitted` of bytes, with the counter of the state it found but for the
RUN forms; `State.emitted_frame` says what that leaves. -/
theorem itemFrame : Obligations.ItemFrame := by
  intro i s t h
  have of_emitted : (∃ bs, t = s.emitted bs s.run) → s.out <+: t.out ∧ t = { s with out := t.out } := by
    rintro ⟨bs, rfl⟩
    exact s.emitted_frame bs s.run
  have of_emitted_run : (∃ bs m, (m = 0 ∨ m = s.run) ∧ t = s.emitted bs m) →
      s.out <+: t.out ∧ t = { s with out := t.out, run := t.run } := by
    rintro ⟨bs, m, -, rfl⟩
    exact s.emitted_frame bs m
  constructor
  · rintro (⟨idx, rfl⟩ | ⟨rt, gt, bt, rfl⟩ | ⟨g, rt, bt, rfl⟩ | ⟨r, g, b, rfl⟩ | ⟨w, k, rfl⟩ | rfl)
    · exact of_emitted (execIndex_next idx h).2
    · exact of_emitted (execDiff_next rt gt bt h).2
    · exact of_emitted (execLuma_next g rt bt h).2
    · exact of_emitted ⟨_, ((execRgb_next_iff r g b s t).1 h).2⟩
    · exact of_emitted ⟨_, ((execHeader_next_iff w k s t).1 h).2⟩
    · exact of_emitted ⟨_, ((execTerminator_next_iff s t).1 h).2⟩
  · rintro (⟨n, rfl⟩ | ⟨n, rfl⟩)
    · exact of_emitted_run (execRunInterior_next n h).2
    · exact of_emitted_run (execRunFinal_next n h).2

/-! ## END -/

/-- R84, R160: with the default bias the final flush byte carries the counter itself. -/
theorem itemBytes_runFinal_blockConfig (run : BitVec 6) :
    itemBytes blockConfig (.runFinal (finalField blockConfig run)) = [byteOf (192 + run.toNat)] := by
  revert run
  decide

/-- R71: the payload of a command word is its lower 64 bits. -/
theorem commandWord_arg (op : BitVec 2) (arg : BitVec 64) : (commandWord op arg).extractLsb' 0 64 = arg :=
  BitVec.extractLsb'_append_eq_right

/-- R72, R73: a command word with selector 3 is END where its payload is 0. -/
theorem decode_commandWord_end (arg : BitVec 64) :
    decode blockConfig (.command (commandWord 3 arg)) = if arg = 0 then .ok .endEncode else .error .illegalWord := by
  simp [decode, decodeCommand, Laws.TransferShape.commandWord_op, commandWord_arg]

/-- Settles O21: `finishEncode_eq` is END's step, with the flush byte of the default bias. -/
theorem endFinishesEncode : Obligations.EndFinishesEncode := by
  refine ⟨fun s hl => ⟨fun hp => ?_, fun hp => ?_⟩, decode_commandWord_end⟩
  · refine (execEnd_next_iff s _).2 ⟨hl, hp, ?_⟩
    rw [finishEncode_eq, itemBytes_runFinal_blockConfig, ite_not]
    rfl
  · change execEnd s = _
    rw [execEnd, State.guarded_of_legal hl, if_pos hp]

end Sys2Proof.Machine
end

section
/-! Proofs of the statements about reset and the invariant (spec 10 R21, R30, R31; 44 R178): each operation keeps it, and
a step is one of these operations. -/

namespace Sys2Proof.Machine

/-! ## Reset -/

/-- Settles O1, by the values of `State.reset`. -/
theorem resetIsIdleAndUnmarked : Obligations.ResetIsIdleAndUnmarked :=
  ⟨rfl, rfl, rfl⟩

/-- A state in which the stream is empty and no encode runs has the invariant as soon as its registers are legal. -/
theorem State.Inv.of_out_nil {s : State} (hl : s.Legal) (hout : s.out = []) (hd : s.delivered = 0)
    (hp : s.phase ≠ phaseStream) : s.Inv where
  legal := hl
  deliveredLe := by simp [hd]
  deliveredLast := by simp [hout]
  stream h := absurd h hp

/-- Settles O2: the reset values are legal, outside STREAM, with nothing in `out`. -/
theorem resetMeetsInvariant : Obligations.ResetMeetsInvariant :=
  .of_out_nil rfl rfl rfl (by decide)

/-! ## R30 in STREAM -/

/-- R30's relations stay where the cache and `prev` do, `out` grows and the run counter is kept or cleared. -/
theorem State.StreamInv.of_frame {s t : State} (h : s.StreamInv) (hcache : t.cache = s.cache) (hprev : t.prev = s.prev)
    (hrun : t.run = 0 ∨ t.run = s.run) (hout : s.out <+: t.out) : t.StreamInv where
  runHasPrev h0 := by
    rw [hprev]
    exact h.runHasPrev (hrun.resolve_left h0 ▸ h0)
  prevCached p hp := by
    rw [State.cacheRead_congr hcache]
    exact h.prevCached p (hprev ▸ hp)
  headerFirst := by
    obtain ⟨w, k, hheader⟩ := h.headerFirst
    exact ⟨w, k, hheader.trans hout⟩
  slots i := by
    rw [State.cacheRead_congr hcache]
    exact h.slots i

/-- R140: after a pixel step the pixel is `prev` and stands in its slot. -/
theorem State.StreamInv.encodePixel {s : State} (h : s.StreamInv) (c : Config) {p : Pixel} (hp : p.a = alphaSynth) :
    (encodePixel c p s).StreamInv where
  runHasPrev _ := by simp
  prevCached q hq := by
    obtain rfl : p = q := by simpa using hq
    exact ⟨by simp [encodePixel_cacheRead], hp⟩
  headerFirst := by
    obtain ⟨w, k, hheader⟩ := h.headerFirst
    exact ⟨w, k, hheader.trans (prefix_encodePixel_out c p s)⟩
  slots i := by
    rw [encodePixel_cacheRead]
    split
    · next hi => exact .inr ⟨hp, hi.symm⟩
    · exact h.slots i

/-- R110: a byte is held, or completes a pixel with the synthesized alpha. -/
theorem State.StreamInv.acceptByte {s : State} (h : s.StreamInv) (hl : s.Legal) (c : Config) (x : Byte) :
    (acceptByte c x s).StreamInv := by
  rcases hl.fragLen_cases with hn | hn | hn
  · rw [acceptByte_of_fragLen_zero hn]
    exact h.of_frame rfl rfl (.inr rfl) (List.prefix_refl _)
  · rw [acceptByte_of_fragLen_one hn]
    exact h.of_frame rfl rfl (.inr rfl) (List.prefix_refl _)
  · rw [acceptByte_of_fragLen_two hn]
    have hset : (s.setFragLen 0).StreamInv := h.of_frame rfl rfl (.inr rfl) (List.prefix_refl _)
    exact hset.encodePixel c rfl

/-- R171: START clears every slot and emits the header. -/
theorem startEncode_streamInv (c : Config) (w k : Word32) (s : State) : (startEncode c w k s).StreamInv := by
  rw [startEncode_eq]
  exact
    { runHasPrev := fun h => absurd rfl h
      prevCached := fun p h => nomatch h
      headerFirst := ⟨w, k, List.prefix_refl _⟩
      slots := fun i => .inl (s.cacheRead_clearCache i) }

/-! ## The invariant, operation by operation -/

namespace State.Inv

variable {s t : State}

/-- R178: bytes appended to `out` leave the port's position where it was, behind what the host received. -/
theorem of_out_prefix (h : s.Inv) (hl : t.Legal) (hout : s.out <+: t.out) (hd : t.delivered = s.delivered)
    (hr : t.received = s.received) (hs : t.phase = phaseStream → t.StreamInv) : t.Inv where
  legal := hl
  deliveredLe := by
    rw [hd]
    exact h.deliveredLe.trans hout.length_le
  deliveredLast := by
    obtain ⟨bs, hbs⟩ := hout
    rw [hd, hr, ← hbs, List.take_append_of_le_length h.deliveredLe]
    exact h.deliveredLast
  stream := hs

/-- What is the host's, and the refusal mark, are no part of the invariant. -/
theorem withHost (h : s.Inv) (port : List Transfer) (status : Option Word32) (mark : Bool) (reason : Option Refusal) :
    State.Inv { s with port := port, statusData := status, refusalMark := mark, refusalReason := reason } :=
  h.of_out_prefix h.legal (List.prefix_refl _) rfl rfl fun hp =>
    (h.stream hp).of_frame rfl rfl (.inr rfl) (List.prefix_refl _)

theorem refuse (h : s.Inv) (r : Refusal) : (s.refuse r).Inv :=
  h.withHost s.port s.statusData true (some r)

theorem emitted (h : s.Inv) (bs : List Byte) {m : BitVec 6} (hm : m = 0 ∨ m = s.run) : (s.emitted bs m).Inv := by
  obtain ⟨hphase, hrun, hfrag⟩ := (State.legal_iff s).1 h.legal
  have hm63 : m ≠ 63 := by
    rcases hm with rfl | rfl
    · decide
    · exact hrun
  exact h.of_out_prefix ((State.legal_iff _).2 ⟨hphase, hm63, hfrag⟩) (List.prefix_append _ _) rfl rfl fun hp =>
    (h.stream hp).of_frame rfl rfl hm (List.prefix_append _ _)

theorem acceptByte (h : s.Inv) (hp : s.phase = phaseStream) (c : Config) (x : Byte) : (acceptByte c x s).Inv := by
  obtain ⟨-, hdelivered, hreceived, hout⟩ := acceptByte_frame c x h.legal
  exact h.of_out_prefix (acceptByte_legal c x h.legal) hout hdelivered hreceived fun _ =>
    (h.stream hp).acceptByte h.legal c x

/-- R171: START sets every register to a legal value and begins `out`, and its port, anew. -/
theorem of_startEncode (c : Config) (w k : Word32) (s : State) : (startEncode c w k s).Inv where
  legal := by
    rw [startEncode_eq]
    rfl
  deliveredLe := by simp [startEncode_eq]
  deliveredLast := by simp [startEncode_eq]
  stream _ := startEncode_streamInv c w k s

/-- R164: END leaves STREAM, with every register legal. -/
theorem finishEncode (h : s.Inv) (c : Config) : (finishEncode c s).Inv := by
  rw [finishEncode_eq]
  refine h.of_out_prefix rfl ?_ rfl rfl fun hp => absurd hp (show phaseDone ≠ phaseStream by decide)
  rw [List.append_assoc]
  exact List.prefix_append _ _

/-- R178: the byte delivered is the next of `out` and the last received. -/
theorem deliver (h : s.Inv) : (deliver s).Inv := by
  cases hb : s.out[s.delivered]? with
  | none => rwa [deliver_of_empty hb]
  | some b =>
    rw [deliver_of_waiting hb]
    obtain ⟨hlt, -⟩ := List.getElem?_eq_some_iff.1 hb
    refine ⟨h.legal, hlt, ?_, fun hp => (h.stream hp).of_frame rfl rfl (.inr rfl) (List.prefix_refl _)⟩
    change s.out.take (s.delivered + 1) <:+ s.received ++ [b]
    rw [List.take_add_one, hb]
    exact List.suffix_append_self_iff.2 h.deliveredLast

/-- R210: a reset leaves STREAM, with every register legal and `out` empty. -/
theorem of_powerOnReset (s : State) : (powerOnReset s).Inv :=
  .of_out_nil rfl rfl rfl (show phaseIdle ≠ phaseStream by decide)

/-- Every instruction keeps the invariant, by the kinds of next state there are. -/
theorem exec (h : s.Inv) {i : Instr} (he : exec i s = .next t) : t.Inv := by
  obtain ⟨-, ⟨-, rfl⟩ | ⟨w, k, -, -, rfl⟩ | ⟨x, -, hp, rfl⟩ | ⟨-, -, rfl⟩ | ⟨-, rfl⟩ | ⟨-, -, -, bs, m, hm, rfl⟩⟩ :=
    exec_next_cases he
  · exact h
  · exact of_startEncode _ w k s
  · exact h.acceptByte hp _ x
  · exact h.finishEncode _
  · exact h.withHost s.port (some s.status) s.refusalMark s.refusalReason
  · exact h.emitted bs hm

end State.Inv

/-! ## The step -/

/-- A settled outcome goes on where the instruction did, or with a refusal recorded. -/
theorem settle_next_cases {s t : State} {o : Host.Outcome State Fault Refusal} (h : settle s o = .next t) :
    o = .next t ∨ ∃ r, t = s.refuse r := by
  cases o with
  | next u => exact .inl h
  | fault f => cases h
  | refused r =>
    rw [settle_refused] at h
    split at h
    · cases h
      exact .inr ⟨r, rfl⟩
    · cases h

/-- Everything a step can go on with: the state it found, or, with the transfer taken off the port, a refusal recorded, a
byte delivered, the reset, or an instruction's next state. -/
theorem step_next_cases {s t : State} (h : step s = .next t) :
    t = s ∨ ∃ rest,
      (∃ r, t = State.refuse { s with port := rest } r) ∨ t = deliver { s with port := rest } ∨
      t = powerOnReset { s with port := rest } ∨ ∃ i, exec i { s with port := rest } = .next t := by
  obtain ⟨hl, hs⟩ := (State.guarded_eq_next_iff _ _ _).1 h
  cases hp : s.port with
  | nil =>
    rw [step_of_idle hl hp] at h
    cases h
    exact .inl rfl
  | cons x rest =>
    refine .inr ⟨rest, ?_⟩
    cases hd : decode blockConfig x with
    | ok i =>
      rw [step_of_decodes hl hp hd] at h
      rcases settle_next_cases h with h | h
      · exact .inr (.inr (.inr ⟨i, h⟩))
      · exact .inl h
    | error e =>
      cases x with
      | command w =>
        rw [step_of_illegalWord hl hp hd] at h
        cases h
        exact .inl ⟨_, rfl⟩
      | statusRead => cases hd
      | item pos bytes =>
        rw [fetch_cons hp, hd] at hs
        cases hs
      | takeByte =>
        rw [step_of_takeByte hl hp] at h
        cases h
        exact .inr (.inl rfl)
      | reset =>
        rw [step_of_reset hl hp] at h
        cases h
        exact .inr (.inr (.inl rfl))

/-- Settles O3: by `step_next_cases` a step is one of the operations above, each of which keeps the invariant. -/
theorem stepKeepsInvariant : Obligations.StepKeepsInvariant := by
  intro s t hinv h
  obtain rfl | ⟨rest, h⟩ := step_next_cases h
  · exact hinv
  have hrest : State.Inv { s with port := rest } :=
    hinv.withHost rest s.statusData s.refusalMark s.refusalReason
  obtain ⟨r, rfl⟩ | rfl | rfl | ⟨i, h⟩ := h
  · exact hrest.refuse r
  · exact hrest.deliver
  · exact .of_powerOnReset _
  · exact hrest.exec h

end Sys2Proof.Machine
end

section
/-! The pixel step in one update (spec 42 R120 to R143): the item chosen, the bytes appended and the run counter left,
each a function of the pixel and of what a step reads. From it, what a pixel step does not read, and that the value of
a cleared cache slot cannot be observed (20 R65). -/

namespace Sys2Proof.Machine

/-! ## One update -/

/-- The item that the chain after RUN emits: INDEX, DIFF, LUMA and RGB in this order (R120, R141). -/
def chosenItem (c : Config) (p : Pixel) (s : State) : Instr :=
  if indexHit s p then .index (pixelHash p)
  else match deltaRef c s with
    | none => .rgb p.r p.g p.b
    | some q => if diffFits p q then diffItem p q else if lumaFits p q then lumaItem p q else .rgb p.r p.g p.b

/-- The interior flush of a pixel step (R124): its bytes, if one is due. -/
def flushBytes (c : Config) (p : Pixel) (s : State) : List Byte :=
  match s.prev with
  | none => []
  | some q => if flushDue s p q then itemBytes c (.runInterior (interiorField s.run)) else []

/-- The bytes a pixel step appends (R143): the flush, then the item of a pixel that RUN did not consume. -/
def pixelBytes (c : Config) (p : Pixel) (s : State) : List Byte :=
  flushBytes c p s ++ if s.prev = some p then [] else itemBytes c (chosenItem c p s)

/-- The run counter a pixel step leaves (R124, R125). -/
def pixelRun (p : Pixel) (s : State) : BitVec 6 :=
  match s.prev with
  | none => s.run
  | some q => if p = q then (if flushDue s p q then 1 else s.run + 1) else if flushDue s p q then 0 else s.run

/-- R121: what RUN does, whether or not there is a previous pixel. -/
theorem opRun_eq (c : Config) (p : Pixel) (s : State) :
    opRun c p s = (decide (s.prev = some p), s.emitted (flushBytes c p s) (pixelRun p s)) := by
  cases h : s.prev with
  | none => simp [opRun_of_prev_none c p h, flushBytes, pixelRun, h]
  | some q => simp [opRun_of_prev_some c p q h, flushBytes, pixelRun, h, eq_comm (a := q) (b := p)]

/-- R120: where RUN declines, the other four emit the chosen item. -/
theorem chain_eq_emitItem (c : Config) (p : Pixel) (s : State) :
    orElseTry (orElseTry (orElseTry (orElseTry (false, s) (opIndex c p)) (opDiff c p)) (opLuma c p)) (opRgb c p) =
      (true, s.emitItem c (chosenItem c p s)) := by
  cases hhit : indexHit s p with
  | true => simp [orElseTry, opIndex, chosenItem, hhit]
  | false =>
    cases href : deltaRef c s with
    | none => simp [orElseTry, opIndex, opDiff, opLuma, opRgb, chosenItem, hhit, href]
    | some q =>
      cases hdiff : diffFits p q with
      | true => simp [orElseTry, opIndex, opDiff, chosenItem, hhit, href, hdiff]
      | false =>
        cases hluma : lumaFits p q <;>
          simp [orElseTry, opIndex, opDiff, opLuma, opRgb, chosenItem, hhit, href, hdiff, hluma]

theorem selectOperation_eq (c : Config) (p : Pixel) (s : State) :
    selectOperation c p s = (true, s.emitted (pixelBytes c p s) (pixelRun p s)) := by
  unfold selectOperation
  rw [opRun_eq]
  by_cases h : s.prev = some p
  · simp [h, orElseTry, pixelBytes]
  · simp only [h, decide_false]
    rw [chain_eq_emitItem, State.emitItem_eq_emitted, State.emitted_emitted]
    simp only [pixelBytes, if_neg h]
    rfl

/-- R120, R140, R143: a pixel step in one update. -/
theorem encodePixel_eq (c : Config) (p : Pixel) (s : State) :
    encodePixel c p s = update p (s.emitted (pixelBytes c p s) (pixelRun p s)) := by
  rw [encodePixel, selectOperation_eq]

theorem encodePixel_out (c : Config) (p : Pixel) (s : State) :
    (encodePixel c p s).out = s.out ++ pixelBytes c p s := by
  rw [encodePixel_eq]
  rfl

theorem encodePixel_run_eq_pixelRun (c : Config) (p : Pixel) (s : State) : (encodePixel c p s).run = pixelRun p s := by
  rw [encodePixel_eq]
  rfl

/-! ## Registers that a pixel step does not read -/

/-- The state with other held bytes and another number of them. -/
def State.withHeld (s : State) (n : BitVec 2) (a b : Byte) : State := { s with fragLen := n, frag0 := a, frag1 := b }

theorem encodePixel_withHeld (c : Config) (p : Pixel) (s : State) (n : BitVec 2) (a b : Byte) :
    encodePixel c p (s.withHeld n a b) = (encodePixel c p s).withHeld n a b := by
  rw [encodePixel_eq, encodePixel_eq]
  rfl

/-- The state with other transfers pending. -/
def State.withPort (s : State) (port : List Transfer) : State := { s with port := port }

theorem encodePixel_withPort (c : Config) (p : Pixel) (s : State) (port : List Transfer) :
    encodePixel c p (s.withPort port) = (encodePixel c p s).withPort port := by
  rw [encodePixel_eq, encodePixel_eq]
  rfl

@[simp] theorem encodePixel_refusalMark (c : Config) (p : Pixel) (s : State) :
    (encodePixel c p s).refusalMark = s.refusalMark := by
  rw [encodePixel_eq]
  rfl

/-! ## Cleared slots -/

/-- R65: two readings of a slot, equal or neither with the alpha of an input pixel. -/
def SameOrUnwritten (p q : Pixel) : Prop := p = q ∨ (p.a ≠ alphaSynth ∧ q.a ≠ alphaSynth)

theorem indexHit_congr {s t : State} {p : Pixel} (hp : p.a = alphaSynth)
    (h : SameOrUnwritten (t.cacheRead (pixelHash p)) (s.cacheRead (pixelHash p))) : indexHit t p = indexHit s p := by
  unfold indexHit
  obtain h | ⟨ht, hs⟩ := h
  · rw [h]
  · have hne {x : Pixel} (hx : x.a ≠ alphaSynth) : x ≠ p := fun e => hx (e ▸ hp)
    simp [hne ht, hne hs]

theorem pixelBytes_withCache (c : Config) {p : Pixel} {s : State} {v : Vector Pixel 64}
    (h : indexHit { s with cache := v } p = indexHit s p) :
    pixelBytes c p { s with cache := v } = pixelBytes c p s := by
  have hitem : chosenItem c p { s with cache := v } = chosenItem c p s := by
    unfold chosenItem
    rw [h]
    rfl
  unfold pixelBytes
  rw [hitem]
  rfl

/-- Settles O57: INDEX, the one encoder that reads the cache, misses both values of an unwritten slot
(`indexHit_congr`), and the update writes the same slot in both states. -/
theorem clearedSlotValueIsUnobservable : Obligations.ClearedSlotValueIsUnobservable := by
  intro pol bias s v p hp t h s' t'
  have hbytes := pixelBytes_withCache (withParameters pol bias) (indexHit_congr hp (h (pixelHash p)))
  constructor
  · simp only [s', t', t, encodePixel_eq, hbytes]
    rfl
  · intro k
    simp only [s', t', encodePixel_cacheRead]
    split
    · exact .inl rfl
    · exact h k

end Sys2Proof.Machine
end

section
/-! Sequences of DATA bytes (spec 41 R110 to R114) as pixel steps on whole strides, and the instructions of one image
as one function of the state (44 R171, R175, R181). -/

namespace Sys2Proof.Machine

/-! ## Sequences of DATA bytes -/

/-- The bytes accepted one after the other (R110). -/
def acceptBytes (c : Config) (bs : List Byte) (s : State) : State := bs.foldl (fun u x => acceptByte c x u) s

/-- The pixel steps of a list of pixels, in order. -/
def encodePixels (c : Config) (ps : List Pixel) (s : State) : State := ps.foldl (fun u p => encodePixel c p u) s

theorem acceptBytes_cons (c : Config) (x : Byte) (bs : List Byte) (s : State) :
    acceptBytes c (x :: bs) s = acceptBytes c bs (acceptByte c x s) := rfl

theorem encodePixels_cons (c : Config) (p : Pixel) (ps : List Pixel) (s : State) :
    encodePixels c (p :: ps) s = encodePixels c ps (encodePixel c p s) := rfl

theorem encodePixels_withHeld (c : Config) (ps : List Pixel) (s : State) (n : BitVec 2) (a b : Byte) :
    encodePixels c ps (s.withHeld n a b) = (encodePixels c ps s).withHeld n a b := by
  induction ps generalizing s with
  | nil => rfl
  | cons p ps ih => rw [encodePixels_cons, encodePixel_withHeld, ih, encodePixels_cons]

/-! Bytes accepted into a state with no byte held (R110): two are held, the third completes a pixel. -/

theorem acceptByte_first (c : Config) (x : Byte) {s : State} (h : s.fragLen = 0) :
    acceptByte c x s = s.withHeld 1 x s.frag1 :=
  acceptByte_of_fragLen_zero h

theorem acceptByte_second (c : Config) (y : Byte) (s : State) (a b : Byte) :
    acceptByte c y (s.withHeld 1 a b) = s.withHeld 2 a y :=
  acceptByte_of_fragLen_one rfl

theorem acceptByte_third (c : Config) (z : Byte) (s : State) (a b : Byte) :
    acceptByte c z (s.withHeld 2 a b) = (encodePixel c (opaquePixel a b z) s).withHeld 0 a b := by
  rw [acceptByte_of_fragLen_two rfl, ← encodePixel_withHeld]
  rfl

/-- R113, R114: the bytes run the pixel step on each whole stride, and what is left over is held. -/
theorem acceptBytes_eq_encodePixels (c : Config) (bs : List Byte) {s : State} (h : s.fragLen = 0) :
    ∃ n a b, n.toNat = bs.length % 3 ∧ acceptBytes c bs s = (encodePixels c (pixelsOf bs) s).withHeld n a b := by
  induction bs using pixelsOf.induct generalizing s with
  | case1 r g b rest ih =>
    obtain ⟨n, a', b', hn, heq⟩ := ih (s := (encodePixel c (opaquePixel r g b) s).withHeld 0 r g) rfl
    refine ⟨n, a', b', by simp [hn, Nat.add_assoc], ?_⟩
    rw [acceptBytes_cons, acceptBytes_cons, acceptBytes_cons, acceptByte_first c r h, acceptByte_second,
      acceptByte_third, heq, encodePixels_withHeld]
    rfl
  | case2 bs hshort =>
    match bs, hshort with
    | [], _ => exact ⟨0, s.frag0, s.frag1, rfl, by rw [← h]; rfl⟩
    | [x], _ => exact ⟨1, x, s.frag1, rfl, acceptByte_first c x h⟩
    | [x, y], _ =>
      refine ⟨2, x, y, rfl, ?_⟩
      rw [acceptBytes_cons, acceptByte_first c x h]
      exact acceptByte_second c y s x s.frag1
    | r :: g :: b :: rest, hshort => exact absurd rfl (hshort r g b rest)

/-! ## Instructions one after the other -/

theorem execAll_cons_of_next {i : Instr} {s t : State} (h : exec i s = .next t) (is : List Instr) :
    execAll (i :: is) s = execAll is t := by
  rw [execAll, h]

theorem execAll_append_of_next {is : List Instr} {s t : State} (h : execAll is s = .next t) (js : List Instr) :
    execAll (is ++ js) s = execAll js t := by
  induction is generalizing s with
  | nil => cases h; rfl
  | cons i is ih =>
    rw [execAll] at h
    cases hi : exec i s <;> rw [hi] at h
    case next u => exact (execAll_cons_of_next hi (is ++ js)).trans (ih h)
    all_goals cases h

section
variable {s : State} (hl : s.Legal) (hp : s.phase = phaseStream)
include hl hp

theorem exec_data (x : Byte) : exec (.data x) s = .next (acceptByte blockConfig x s) :=
  (execData_next_iff x s _).2 ⟨hl, hp, rfl⟩

theorem exec_end : exec .endEncode s = .next (finishEncode blockConfig s) :=
  (execEnd_next_iff s _).2 ⟨hl, hp, rfl⟩

/-- A byte leaves a state that accepts the next byte. -/
theorem acceptByte_ready (x : Byte) :
    (acceptByte blockConfig x s).Legal ∧ (acceptByte blockConfig x s).phase = phaseStream := by
  obtain ⟨hphase, -⟩ := acceptByte_frame blockConfig x hl
  exact ⟨acceptByte_legal blockConfig x hl, hphase.trans hp⟩

theorem acceptBytes_ready (bs : List Byte) :
    (acceptBytes blockConfig bs s).Legal ∧ (acceptBytes blockConfig bs s).phase = phaseStream := by
  induction bs generalizing s with
  | nil => exact ⟨hl, hp⟩
  | cons x bs ih =>
    obtain ⟨hl', hp'⟩ := acceptByte_ready hl hp x
    exact ih hl' hp'

theorem execAll_data (bs : List Byte) : execAll (bs.map .data) s = .next (acceptBytes blockConfig bs s) := by
  induction bs generalizing s with
  | nil => rfl
  | cons x bs ih =>
    obtain ⟨hl', hp'⟩ := acceptByte_ready hl hp x
    rw [List.map_cons, execAll_cons_of_next (exec_data hl hp x), ih hl' hp', acceptBytes_cons]

end

/-- Settles O51: `execAll_data` runs the bytes, and `acceptBytes_eq_encodePixels` says what they amount to. -/
theorem dataBytesRunPixelSteps : Obligations.DataBytesRunPixelSteps := by
  intro bs s hl hp hfrag
  obtain ⟨n, a, b, hn, heq⟩ := acceptBytes_eq_encodePixels blockConfig bs hfrag
  refine ⟨_, execAll_data hl hp bs, ?_, ?_⟩
  · rw [heq]
    exact hn
  · rw [heq]
    rfl

/-! ## One image -/

/-- The steps of one image, START to END (R181). -/
def encodeImage (w h : Word32) (bs : List Byte) (s : State) : State :=
  finishEncode blockConfig (acceptBytes blockConfig bs (startEncode blockConfig w h s))

/-- R171: START leaves a state that accepts a byte. -/
theorem startEncode_ready (w h : Word32) (s : State) :
    (startEncode blockConfig w h s).Legal ∧ (startEncode blockConfig w h s).phase = phaseStream := by
  rw [startEncode_eq]
  exact ⟨rfl, rfl⟩

section
variable {s : State} (hl : s.Legal) (hp : s.phase ≠ phaseStream) (w h : Word32)
include hl hp

theorem exec_start : exec (.start w h) s = .next (startEncode blockConfig w h s) :=
  (execStart_next_iff w h s _).2 ⟨hl, hp, rfl⟩

theorem execAll_image (bs : List Byte) :
    execAll (.start w h :: bs.map .data ++ [.endEncode]) s = .next (encodeImage w h bs s) := by
  obtain ⟨hls, hps⟩ := startEncode_ready w h s
  obtain ⟨hld, hpd⟩ := acceptBytes_ready hls hps bs
  rw [List.cons_append, execAll_cons_of_next (exec_start hl hp w h),
    execAll_append_of_next (execAll_data hls hps bs), execAll_cons_of_next (exec_end hld hpd)]
  rfl

end

/-- The state before END of an image, but for the bytes held: its whole pixels encoded after START. -/
def imagePixels (w h : Word32) (bs : List Byte) (s : State) : State :=
  encodePixels blockConfig (pixelsOf bs) (startEncode blockConfig w h s)

/-- R164, R171: END of an image flushes the run of its pixels and ends the stream; the fragment has no part in it. -/
theorem encodeImage_eq (w h : Word32) (bs : List Byte) (s : State) :
    ∃ a b, encodeImage w h bs s =
      (finishEncode blockConfig (imagePixels w h bs s)).withHeld 0 a b := by
  have hfrag : (startEncode blockConfig w h s).fragLen = 0 := by rw [startEncode_eq]
  obtain ⟨n, a, b, -, heq⟩ := acceptBytes_eq_encodePixels blockConfig bs hfrag
  refine ⟨a, b, ?_⟩
  rw [encodeImage, heq, finishEncode_eq, finishEncode_eq]
  rfl

end Sys2Proof.Machine
end

section
/-! Lengths (spec 20 R59): what a pixel step and an image emit, the flush byte of a pending run counted with the
bytes. -/

namespace Sys2Proof.Machine

/-! ## Bytes emitted and pending -/

/-- The bytes that flushing the pending run will take: one, if a run is pending. -/
def State.runBytes (s : State) : Nat := if s.run = 0 then 0 else 1

theorem State.runBytes_le (s : State) : s.runBytes ≤ 1 := by
  unfold State.runBytes
  split <;> omega

/-- R90: the item of a pixel that RUN did not consume has at most the four bytes of RGB. -/
theorem chosenItem_length (c : Config) (p : Pixel) (s : State) : (itemBytes c (chosenItem c p s)).length ≤ 4 := by
  unfold chosenItem
  split
  · simp [itemBytes]
  · split
    · simp [itemBytes]
    · split_ifs <;> simp [itemBytes, diffItem, lumaItem]

theorem flushBytes_length_le (c : Config) (p : Pixel) (s : State) : (flushBytes c p s).length ≤ s.runBytes := by
  unfold flushBytes State.runBytes
  split
  · simp
  · split_ifs with hdue h0
    · simp [flushDue, h0] at hdue
    · simp [itemBytes]
    · simp
    · simp

/-- R124: a pixel that ends the run flushes it, so that none is pending after; with no previous pixel nothing changes.
-/
theorem flushBytes_length_add_runBytes_le (c : Config) {p : Pixel} {s : State} (h : s.prev ≠ some p) :
    (flushBytes c p s).length + (encodePixel c p s).runBytes ≤ s.runBytes := by
  rw [State.runBytes, encodePixel_run_eq_pixelRun]
  cases hprev : s.prev with
  | none => simp [flushBytes, pixelRun, hprev, State.runBytes]
  | some q =>
    have hpq : p ≠ q := fun e => h (e ▸ hprev)
    have hlen := flushBytes_length_le c p s
    have hrun : pixelRun p s = 0 := by
      by_cases h0 : s.run = 0 <;> simp [pixelRun, hprev, hpq, flushDue, h0]
    simpa [hrun] using hlen

/-- R59: a pixel step appends the byte that was pending and at most four others, or leaves one pending. -/
theorem encodePixel_length (c : Config) (p : Pixel) (s : State) :
    (encodePixel c p s).out.length + (encodePixel c p s).runBytes ≤ s.out.length + s.runBytes + 4 := by
  rw [encodePixel_out, pixelBytes, List.length_append, List.length_append]
  by_cases h : s.prev = some p
  · have hflush := flushBytes_length_le c p s
    have hpending := (encodePixel c p s).runBytes_le
    simp only [h, if_true, List.length_nil]
    omega
  · have hflush := flushBytes_length_add_runBytes_le c h
    have hitem := chosenItem_length c p s
    simp only [h, if_false]
    omega

/-! ## Lengths of an image -/

/-- R112: as many whole pixels as whole strides of three. -/
theorem pixelsOf_length (bs : List Byte) : (pixelsOf bs).length = bs.length / 3 := by
  induction bs using pixelsOf.induct with
  | case1 r g b rest ih => simp [pixelsOf, ih]; omega
  | case2 bs hshort =>
    match bs, hshort with
    | [], _ | [x], _ | [x, y], _ => simp [pixelsOf]
    | r :: g :: b :: rest, hshort => exact absurd rfl (hshort r g b rest)

theorem encodePixels_length (c : Config) (ps : List Pixel) (s : State) :
    s.out.length ≤ (encodePixels c ps s).out.length ∧
    (encodePixels c ps s).out.length + (encodePixels c ps s).runBytes ≤ s.out.length + s.runBytes + 4 * ps.length := by
  induction ps generalizing s with
  | nil => exact ⟨le_rfl, le_rfl⟩
  | cons p ps ih =>
    obtain ⟨hlower, hupper⟩ := ih (encodePixel c p s)
    have hgrow := (prefix_encodePixel_out c p s).length_le
    have hstep := encodePixel_length c p s
    rw [encodePixels_cons, List.length_cons]
    omega

/-- R160, R161: END appends the pending byte and the terminator's eight. -/
theorem finishEncode_length (c : Config) (s : State) :
    (finishEncode c s).out.length = s.out.length + s.runBytes + 8 := by
  rw [finishEncode_eq, State.runBytes]
  by_cases h0 : s.run = 0
  · rw [if_neg (not_not.2 h0), if_pos h0]
    simp [terminatorBytes]
  · rw [if_pos h0, if_neg h0]
    simp [itemBytes, terminatorBytes]

theorem headerBytes_length (w h : Word32) : (headerBytes w h).length = 14 := rfl

/-- Settles O55: `encodePixel_length` counts the pending flush byte with those emitted, so that a pixel adds four at
most; over an image that gives the bound (`encodePixels_length`), and for one step the fifth byte is the one pending.
-/
theorem streamLengthBounds : Obligations.StreamLengthBounds := by
  constructor
  · intro s w h bs hl hp
    refine ⟨_, execAll_image hl hp w h bs, ?_⟩
    obtain ⟨a, b, heq⟩ := encodeImage_eq w h bs s
    obtain ⟨hlower, hupper⟩ := encodePixels_length blockConfig (pixelsOf bs) (startEncode blockConfig w h s)
    have hout : (startEncode blockConfig w h s).out.length = 14 := by
      rw [startEncode_eq]
      exact headerBytes_length w h
    have hrun : (startEncode blockConfig w h s).runBytes = 0 := by
      rw [startEncode_eq]
      rfl
    have hlen : (encodeImage w h bs s).out.length =
        (imagePixels w h bs s).out.length + (imagePixels w h bs s).runBytes + 8 := by
      rw [heq]
      exact finishEncode_length blockConfig _
    rw [imagePixels] at hlen
    rw [← pixelsOf_length]
    omega
  · intro pol bias s p
    have hstep := encodePixel_length (withParameters pol bias) p s
    have hpending := s.runBytes_le
    omega

end Sys2Proof.Machine
end

section
/-! The bytes of a pixel step against the reference's (spec 42 R121 to R143), for both values of both parameters: the
deltas in integer arithmetic, the packed items, and the choice among them. -/

namespace Sys2Proof.Machine

/-! ## Deltas in integer arithmetic -/

theorem signedDelta_bounds (cur ref : Byte) : -128 ≤ signedDelta cur ref ∧ signedDelta cur ref ≤ 127 := by
  have hcur := cur.isLt
  have href := ref.isLt
  simp only [signedDelta]
  split_ifs <;> omega

/-- R129: the wrapped delta is the reference's signed delta mod 256. -/
theorem toNat_delta8 (cur ref : Byte) : ((delta8 cur ref).toNat : Int) = signedDelta cur ref % 256 := by
  have hcur := cur.isLt
  have href := ref.isLt
  rw [delta8, BitVec.toNat_sub, signedDelta]
  split_ifs <;> omega

/-- R129: the wrapped delta, read as a signed number, is the reference's signed delta. -/
theorem toInt_delta8 (cur ref : Byte) : (delta8 cur ref).toInt = signedDelta cur ref := by
  have hmod := toNat_delta8 cur ref
  have hbounds := signedDelta_bounds cur ref
  rw [BitVec.toInt_eq_toNat_cond]
  split_ifs <;> omega

theorem toNat_diffField (cur ref : Byte) : ((diffField cur ref).toNat : Int) = (signedDelta cur ref + 2) % 256 := by
  have hmod := toNat_delta8 cur ref
  unfold diffField
  bv_omega

theorem toNat_lumaTerm (cur ref p q : Byte) :
    ((lumaTerm cur ref (delta8 p q)).toNat : Int) = (signedDelta cur ref - signedDelta p q + 8) % 256 := by
  have hmod := toNat_delta8 cur ref
  have hgreen := toNat_delta8 p q
  unfold lumaTerm
  bv_omega

/-- R130, R131: a biased wrapped delta is at most 3 where the signed delta is in [-2,1]. -/
theorem diffField_le_iff (cur ref : Byte) :
    diffField cur ref ≤ 3 ↔ -2 ≤ signedDelta cur ref ∧ signedDelta cur ref ≤ 1 := by
  have hfield := toNat_diffField cur ref
  have hbounds := signedDelta_bounds cur ref
  bv_omega

/-- R81: an accepted biased delta fits its two bits. -/
theorem toNat_diffField_setWidth {cur ref : Byte} (h : diffField cur ref ≤ 3) :
    (((diffField cur ref).setWidth 2).toNat : Int) = signedDelta cur ref + 2 := by
  have hfield := toNat_diffField cur ref
  have hrange := (diffField_le_iff cur ref).1 h
  rw [BitVec.toNat_setWidth]
  omega

section
variable {cur ref p q : Byte} (hgreen : -32 ≤ signedDelta p q ∧ signedDelta p q ≤ 31)
include hgreen

/-- R133, R135: with a green delta in [-32,31], a biased term is at most 15 where the unwrapped difference is in
[-8,7]. -/
theorem lumaTerm_le_iff :
    lumaTerm cur ref (delta8 p q) ≤ 15 ↔
      -8 ≤ signedDelta cur ref - signedDelta p q ∧ signedDelta cur ref - signedDelta p q ≤ 7 := by
  have hterm := toNat_lumaTerm cur ref p q
  have hbounds := signedDelta_bounds cur ref
  bv_omega

/-- R82: an accepted biased term fits its four bits. -/
theorem toNat_lumaTerm_setWidth (h : lumaTerm cur ref (delta8 p q) ≤ 15) :
    (((lumaTerm cur ref (delta8 p q)).setWidth 4).toNat : Int) = signedDelta cur ref - signedDelta p q + 8 := by
  have hterm := toNat_lumaTerm cur ref p q
  have hrange := (lumaTerm_le_iff hgreen).1 h
  rw [BitVec.toNat_setWidth]
  omega

end

/-- R82: an accepted green delta, plus 32, fits its six bits. -/
theorem toNat_ofInt_greenField {dg : Int} (h : -32 ≤ dg ∧ dg ≤ 31) :
    ((BitVec.ofInt 6 (dg + 32)).toNat : Int) = dg + 32 := by
  rw [BitVec.toNat_ofInt]
  omega

/-! ## The bytes of an item -/

section
variable (pol : PrevInitPolicy) (bias : Fin 2)

/-- The two open parameters are no part of an item's bytes. -/
theorem itemBytes_withParameters (i : Instr) : itemBytes (withParameters pol bias) i = itemBytes blockConfig i := by
  cases i <;> rfl

theorem itemBytes_index (idx : BitVec 6) :
    itemBytes (withParameters pol bias) (.index idx) = [byteOf idx.toNat] := by
  rw [itemBytes_withParameters]
  revert idx
  decide

theorem itemBytes_diff (rt gt bt : BitVec 2) :
    itemBytes (withParameters pol bias) (.diff rt gt bt) = [byteOf (64 + 16 * rt.toNat + 4 * gt.toNat + bt.toNat)] := by
  rw [itemBytes_withParameters]
  revert rt gt bt
  decide

theorem itemBytes_luma (g : BitVec 6) (rt bt : BitVec 4) :
    itemBytes (withParameters pol bias) (.luma g rt bt) =
      [byteOf (128 + g.toNat), byteOf (16 * rt.toNat + bt.toNat)] := by
  have hfirst : ∀ g : BitVec 6, tagged6 0x80 g = byteOf (128 + g.toNat) := by decide
  have hsecond : ∀ rt bt : BitVec 4,
      (rt.setWidth 8 <<< 4) ||| bt.setWidth 8 = byteOf (16 * rt.toNat + bt.toNat) := by decide
  exact congrArg₂ (fun a b => [a, b]) (hfirst g) (hsecond rt bt)

/-- R83, R124: the interior flush byte carries the counter less one. -/
theorem itemBytes_runInterior {run : BitVec 6} (h : run ≠ 0) :
    itemBytes (withParameters pol bias) (.runInterior (interiorField run)) = [byteOf (192 + (run.toNat - 1))] := by
  rw [itemBytes_withParameters]
  revert run
  decide

/-! ## The reference's items -/

/-- R81, R131: DIFF accepts where the reference does, with its byte. -/
theorem refDiff_eq (p q : Pixel) :
    refDiff p q = if diffFits p q then some (itemBytes (withParameters pol bias) (diffItem p q)) else none := by
  have hfits : diffFits p q = true ↔ diffField p.r q.r ≤ 3 ∧ diffField p.g q.g ≤ 3 ∧ diffField p.b q.b ≤ 3 := by
    simp [diffFits, and_assoc]
  simp only [refDiff, hfits, ← diffField_le_iff]
  split_ifs with h
  · obtain ⟨hr, hg, hb⟩ := h
    rw [diffItem, itemBytes_diff, toNat_diffField_setWidth hr, toNat_diffField_setWidth hg,
      toNat_diffField_setWidth hb]
  · rfl

/-- R82, R135: LUMA accepts where the reference does, with its bytes. -/
theorem refLuma_eq (p q : Pixel) :
    refLuma p q = if lumaFits p q then some (itemBytes (withParameters pol bias) (lumaItem p q)) else none := by
  have hgreen : lumaGreen p q = signedDelta p.g q.g := toInt_delta8 p.g q.g
  have hfits : lumaFits p q = true ↔ (-32 ≤ signedDelta p.g q.g ∧ signedDelta p.g q.g ≤ 31) ∧
      lumaTerm p.r q.r (delta8 p.g q.g) ≤ 15 ∧ lumaTerm p.b q.b (delta8 p.g q.g) ≤ 15 := by
    simp [lumaFits, hgreen, and_assoc]
  by_cases hdg : -32 ≤ signedDelta p.g q.g ∧ signedDelta p.g q.g ≤ 31
  · simp only [refLuma, hfits, ← lumaTerm_le_iff hdg]
    split_ifs with h
    · obtain ⟨-, hr, hb⟩ := h
      rw [lumaItem, itemBytes_luma, toNat_lumaTerm_setWidth hdg hr, toNat_lumaTerm_setWidth hdg hb, hgreen,
        toNat_ofInt_greenField hdg]
    · rfl
  · simp only [refLuma, hfits, hdg, false_and, if_false]

/-- R139: the reference pixel. -/
theorem deltaRef_eq (s : State) : deltaRef (withParameters pol bias) s = refReference pol s.prev := by
  cases hprev : s.prev with
  | none => cases pol <;> simp [deltaRef, hprev, refReference, withParameters, opaquePixel, alphaSynth]
  | some q => simp [deltaRef, hprev, refReference]

/-- R141, R143: the chosen item has the bytes of the first reference item that accepts. -/
theorem itemBytes_chosenItem (p : Pixel) (s : State) :
    itemBytes (withParameters pol bias) (chosenItem (withParameters pol bias) p s) =
      refItem (decide (s.cacheRead (pixelHash p) = p)) (refReference pol s.prev) p := by
  rw [← deltaRef_eq pol bias, refItem, chosenItem, indexHit]
  split
  · exact itemBytes_index pol bias _
  · cases deltaRef (withParameters pol bias) s with
    | none => rfl
    | some q =>
      simp only [Option.bind_some, refDiff_eq pol bias, refLuma_eq pol bias]
      split_ifs <;> rfl

/-- R124: the flush bytes of a pixel step are the reference's. -/
theorem flushBytes_eq (p : Pixel) (s : State) :
    flushBytes (withParameters pol bias) p s = refFlush s.prev s.run.toNat p := by
  cases hprev : s.prev with
  | none => simp [flushBytes, hprev, refFlush]
  | some q =>
    have hdue : flushDue s p q = true ↔ s.run.toNat ≠ 0 ∧ (q ≠ p ∨ s.run.toNat = 62) := by
      simp [flushDue, runMax, BitVec.toNat_eq, eq_comm (a := p), and_comm]
    simp only [flushBytes, hprev, refFlush, hdue, ne_eq, Option.some.injEq, reduceCtorEq, not_false_eq_true, true_and]
    split_ifs with h
    · obtain ⟨h0, -⟩ := h
      exact itemBytes_runInterior pol bias (by simpa [BitVec.toNat_eq] using h0)
    · rfl

/-- R143: the bytes of a pixel step are the reference's, for both values of both parameters. -/
theorem pixelBytes_eq (p : Pixel) (s : State) :
    pixelBytes (withParameters pol bias) p s =
      refPixel pol s.prev s.run.toNat (decide (s.cacheRead (pixelHash p) = p)) p := by
  rw [pixelBytes, flushBytes_eq, itemBytes_chosenItem, refPixel]

end

end Sys2Proof.Machine
end

section
/-! One image through the ports against the reference encoder (spec 30 R58; 44 R171 to R181): the cache and `prev` as
a history of pixels, the stream of an image, and the run of its transfers. -/

namespace Sys2Proof.Machine

/-! ## The registers as a history of pixels -/

/-- What the cache and `prev` hold after the pixels of an encode, latest first (R51, R140). -/
structure State.Remembers (s : State) (earlier : List Pixel) : Prop where
  prev : s.prev = earlier.head?
  slots : ∀ k, s.cacheRead k = (earlier.find? (fun q => pixelHash q = k)).getD Pixel.cleared

theorem startEncode_remembers (c : Config) (w h : Word32) (s : State) : (startEncode c w h s).Remembers [] := by
  rw [startEncode_eq]
  exact ⟨rfl, s.cacheRead_clearCache⟩

theorem State.Remembers.encodePixel {s : State} {earlier : List Pixel} (h : s.Remembers earlier) (c : Config)
    (p : Pixel) : (encodePixel c p s).Remembers (p :: earlier) where
  prev := encodePixel_prev c p s
  slots k := by
    rw [encodePixel_cacheRead, h.slots, List.find?_cons]
    by_cases hk : k = pixelHash p
    · simp [hk]
    · simp [hk, Ne.symm hk]

/-- R127, R128: a slot holds a pixel of the input where the latest earlier pixel of its hash is that pixel. -/
theorem State.Remembers.hit_eq_refHit {s : State} {earlier : List Pixel} (h : s.Remembers earlier) {p : Pixel}
    (hp : p.a = alphaSynth) : decide (s.cacheRead (pixelHash p) = p) = refHit earlier p := by
  rw [h.slots, refHit]
  cases earlier.find? (fun q => pixelHash q = pixelHash p) with
  | none =>
    have hcleared : Pixel.cleared ≠ p := fun e => absurd (e ▸ hp) (by decide)
    simp [hcleared]
  | some q => simp

/-- The pixels of the input have the synthesized alpha (R111). -/
theorem alpha_of_mem_pixelsOf {bs : List Byte} : ∀ p ∈ pixelsOf bs, p.a = alphaSynth := by
  induction bs using pixelsOf.induct with
  | case1 r g b rest ih => simpa [pixelsOf, opaquePixel] using ih
  | case2 bs hshort => simp [pixelsOf]

/-- R58, R120, R160: the pixel steps and the final flush emit the reference's operation stream. -/
theorem encodePixels_flushed_out {s : State} {earlier ps : List Pixel} (h : s.Remembers earlier) (hl : s.Legal)
    (hps : ∀ p ∈ ps, p.a = alphaSynth) :
    (finalFlush blockConfig (encodePixels blockConfig ps s)).out =
      s.out ++ refOps .decline 0 earlier s.run.toNat ps := by
  induction ps generalizing s earlier with
  | nil =>
    rw [finalFlush_eq, State.emitted_out, itemBytes_runFinal_blockConfig]
    by_cases h0 : s.run = 0 <;> simp [encodePixels, refOps, h0, BitVec.toNat_eq]
  | cons p ps ih =>
    obtain ⟨hp, hps⟩ := List.forall_mem_cons.1 hps
    rw [encodePixels_cons, ih (h.encodePixel blockConfig p) (encodePixel_legal blockConfig p hl) hps, encodePixel_out,
      encodePixel_run_toNat blockConfig p hl, refOps, ← h.prev, ← h.hit_eq_refHit hp,
      show blockConfig = withParameters .decline 0 from rfl, pixelBytes_eq, List.append_assoc]

/-- R58: the stream of one image is the reference's. -/
theorem encodeImage_out (w h : Word32) (bs : List Byte) (s : State) :
    (encodeImage w h bs s).out = refStream .decline 0 w h bs := by
  obtain ⟨a, b, heq⟩ := encodeImage_eq w h bs s
  have hops := encodePixels_flushed_out (startEncode_remembers blockConfig w h s) (startEncode_ready w h s).1
    (alpha_of_mem_pixelsOf (bs := bs))
  rw [finalFlush_eq, State.emitted_out] at hops
  have hstart : (startEncode blockConfig w h s).out = refHeader w h ∧ (startEncode blockConfig w h s).run = 0 := by
    rw [startEncode_eq]
    exact ⟨headerBytes_eq_refHeader w h, rfl⟩
  obtain ⟨hout, hrun⟩ := hstart
  rw [heq, finishEncode_eq, refStream]
  change (imagePixels w h bs s).out ++ _ ++ _ = _
  rw [imagePixels, hops, hout, hrun]
  rfl

/-! ## Running the transfers of an image -/

/-- R71: bits of a command word below the selector are bits of the payload. -/
theorem commandWord_extract (op : BitVec 2) (arg : BitVec 64) {k n : Nat} (h : k + n ≤ 64) :
    (commandWord op arg).extractLsb' k n = arg.extractLsb' k n :=
  BitVec.extractLsb'_append_eq_of_add_le h

theorem decode_encode_data (x : Byte) : decode blockConfig (encode blockConfig (.data x)) = .ok (.data x) := by
  have hhigh : (commandWord 2#2 (x.setWidth 64)).extractLsb' 8 56 = 0 := by
    rw [commandWord_extract _ _ (by decide)]
    refine BitVec.eq_of_toNat_eq ?_
    have hx : x.toNat >>> 8 = 0 := Nat.shiftRight_eq_zero _ _ x.isLt
    rw [BitVec.extractLsb'_toNat, BitVec.toNat_setWidth_of_le (by decide), hx]
    rfl
  have hlow : (commandWord 2#2 (x.setWidth 64)).extractLsb' 0 8 = x := by
    rw [commandWord_extract _ _ (by decide), BitVec.extractLsb'_setWidth_of_le (by decide), BitVec.extractLsb'_eq_self]
  simp [encode, decode, decodeCommand, Laws.TransferShape.commandWord_op, hhigh, hlow]

theorem decode_encode_start (w h : Word32) :
    decode blockConfig (encode blockConfig (.start w h)) = .ok (.start w h) := by
  have hw : (commandWord 1#2 (w ++ h)).extractLsb' 32 32 = w := by
    rw [commandWord_extract _ _ (by decide), BitVec.extractLsb'_append_eq_left]
  have hh : (commandWord 1#2 (w ++ h)).extractLsb' 0 32 = h := by
    rw [commandWord_extract _ _ (by decide), BitVec.extractLsb'_append_eq_right]
  simp [encode, decode, decodeCommand, Laws.TransferShape.commandWord_op, hw, hh]

theorem decode_encode_end : decode blockConfig (encode blockConfig .endEncode) = .ok .endEncode :=
  (decode_commandWord_end 0).trans (if_pos rfl)

/-- A run whose first step goes on is the run from there. -/
theorem coreRun_succ_of_next {M : Host.Core} {s t : M.State} (h : M.step s = .next t) (k : Nat) :
    M.run (k + 1) s = M.run k t := by
  rw [Host.Core.run, h]

/-- One step of a run: the transfer of an instruction that completes. -/
theorem run_withPort_cons {s t : State} {i : Instr} {rest : List Transfer} (hl : s.Legal)
    (hd : decode blockConfig (encode blockConfig i) = .ok i) (he : exec i (s.withPort rest) = .next t) (k : Nat) :
    Host.Core.run core (k + 1) (s.withPort (encode blockConfig i :: rest)) = Host.Core.run core k t := by
  obtain ⟨hnext, -, -⟩ :=
    stepRunsDecodedInstruction (s.withPort (encode blockConfig i :: rest)) _ rest i hl rfl hd
  exact coreRun_succ_of_next (M := core) (hnext t he) k

theorem acceptByte_withPort (c : Config) (x : Byte) (s : State) (port : List Transfer) :
    acceptByte c x (s.withPort port) = (acceptByte c x s).withPort port := by
  have hlen : (s.withPort port).fragLen = s.fragLen := rfl
  unfold acceptByte
  rw [hlen]
  split
  · unfold State.setFrag
    split <;> rfl
  · exact encodePixel_withPort c _ (s.setFragLen 0) port

theorem acceptBytes_withPort (c : Config) (bs : List Byte) (s : State) (port : List Transfer) :
    acceptBytes c bs (s.withPort port) = (acceptBytes c bs s).withPort port := by
  induction bs generalizing s with
  | nil => rfl
  | cons x bs ih => rw [acceptBytes_cons, acceptByte_withPort, ih, acceptBytes_cons]

theorem startEncode_withPort (c : Config) (w h : Word32) (s : State) (port : List Transfer) :
    startEncode c w h (s.withPort port) = (startEncode c w h s).withPort port := by
  rw [startEncode_eq, startEncode_eq]
  rfl

theorem finishEncode_withPort (c : Config) (s : State) (port : List Transfer) :
    finishEncode c (s.withPort port) = (finishEncode c s).withPort port := by
  rw [finishEncode_eq, finishEncode_eq]
  rfl

/-- The transfers of DATA bytes. -/
def dataTransfers (bs : List Byte) : List Transfer := bs.map fun b => encode blockConfig (.data b)

/-- The transfers of DATA bytes at the head of the port, run one by one. -/
theorem run_data (bs : List Byte) {s : State} {rest : List Transfer} (hl : s.Legal) (hs : s.phase = phaseStream)
    (k : Nat) :
    Host.Core.run core (bs.length + k) (s.withPort (dataTransfers bs ++ rest)) =
      Host.Core.run core k ((acceptBytes blockConfig bs s).withPort rest) := by
  induction bs generalizing s with
  | nil =>
    rw [List.length_nil, Nat.zero_add]
    rfl
  | cons x bs ih =>
    obtain ⟨hla, hsa⟩ := acceptByte_ready hl hs x
    have hexec := exec_data (s := s.withPort (dataTransfers bs ++ rest)) hl hs x
    rw [acceptByte_withPort] at hexec
    rw [List.length_cons, Nat.add_right_comm]
    exact (run_withPort_cons hl (decode_encode_data x) hexec (bs.length + k)).trans (ih hla hsa)

/-- The transfers of one image, run one by one. -/
theorem run_image {s : State} {w h : Word32} {bs : List Byte} (hl : s.Legal) (hs : s.phase ≠ phaseStream)
    (hp : s.port = image blockConfig w h bs) :
    Host.Core.run core (bs.length + 2) s = .next ((encodeImage w h bs s).withPort []) := by
  have hport : s = s.withPort (image blockConfig w h bs) := by rw [← hp]; rfl
  obtain ⟨hls, hss⟩ := startEncode_ready w h s
  obtain ⟨hld, hsd⟩ := acceptBytes_ready hls hss bs
  have hstart := exec_start (s := s.withPort (dataTransfers bs ++ [encode blockConfig .endEncode])) hl hs w h
  have hend := exec_end (s := (acceptBytes blockConfig bs (startEncode blockConfig w h s)).withPort []) hld hsd
  rw [startEncode_withPort] at hstart
  rw [finishEncode_withPort] at hend
  calc Host.Core.run core (bs.length + 2) s
      = Host.Core.run core (bs.length + 2) (s.withPort (image blockConfig w h bs)) := congrArg _ hport
    _ = Host.Core.run core (bs.length + 1) _ := run_withPort_cons hl (decode_encode_start w h) hstart _
    _ = Host.Core.run core 1 _ := run_data bs hls hss 1
    _ = Host.Core.run core 0 _ := run_withPort_cons hld decode_encode_end hend 0

theorem encodePixels_refusalMark (c : Config) (ps : List Pixel) (s : State) :
    (encodePixels c ps s).refusalMark = s.refusalMark := by
  induction ps generalizing s with
  | nil => rfl
  | cons p ps ih => rw [encodePixels_cons, ih, encodePixel_refusalMark]

theorem encodeImage_refusalMark (w h : Word32) (bs : List Byte) (s : State) :
    (encodeImage w h bs s).refusalMark = s.refusalMark := by
  obtain ⟨a, b, heq⟩ := encodeImage_eq w h bs s
  rw [heq, finishEncode_eq]
  exact (encodePixels_refusalMark _ _ _).trans (by rw [startEncode_eq])

theorem encodeImage_phase (w h : Word32) (bs : List Byte) (s : State) : (encodeImage w h bs s).phase = phaseDone := by
  rw [encodeImage, finishEncode_eq]

/-- Settles O54: `run_image` runs the transfers, and `encodeImage_out` compares the stream with the reference, through
the history of pixels that the cache and `prev` stand for. -/
theorem imageRunEmitsReferenceStream : Obligations.ImageRunEmitsReferenceStream := by
  intro s w h bs hl hs hp
  exact ⟨_, run_image hl hs hp, encodeImage_phase w h bs s, rfl, encodeImage_refusalMark w h bs s,
    encodeImage_out w h bs s⟩

end Sys2Proof.Machine
end

section
/-! The encodings (spec 30 R71 to R76, R80 to R88): decoding an encoding, encoding what decodes, and the decoder of
command words in integer arithmetic. -/

namespace Sys2Proof.Machine

/-! ## Decoding an encoding -/

/-- A LUMA item is read by its tag bits, which set it apart from RGB and the reserved byte (R76, R82). -/
theorem decodeOperation_luma {b : Byte} (h : tagBits b = 0x80) (b1 : Byte) :
    decodeOperation blockConfig [b, b1] = .ok (.luma (low6 b) (b1.extractLsb' 4 4) (b1.extractLsb' 0 4)) := by
  have hrgb : b ≠ blockConfig.tagRgb := by rintro rfl; exact absurd h (by decide)
  have hreserved : b ≠ reservedByte := by rintro rfl; exact absurd h (by decide)
  simp only [decodeOperation, if_neg hrgb, if_neg hreserved]
  exact if_pos h

theorem decode_encode_luma (g : BitVec 6) (rt bt : BitVec 4) :
    decode blockConfig (encode blockConfig (.luma g rt bt)) = .ok (.luma g rt bt) := by
  have hfirst : ∀ g : BitVec 6, tagBits (tagged6 0x80 g) = 0x80 ∧ low6 (tagged6 0x80 g) = g := by decide
  have hsecond : ∀ rt bt : BitVec 4, ((rt.setWidth 8 <<< 4) ||| bt.setWidth 8 : Byte).extractLsb' 4 4 = rt ∧
      ((rt.setWidth 8 <<< 4) ||| bt.setWidth 8 : Byte).extractLsb' 0 4 = bt := by decide
  obtain ⟨htag, hlow⟩ := hfirst g
  obtain ⟨hr, hb⟩ := hsecond rt bt
  refine (decodeOperation_luma htag _).trans ?_
  rw [hlow, hr, hb]

theorem decode_encode_diff (rt gt bt : BitVec 2) :
    decode blockConfig (encode blockConfig (.diff rt gt bt)) = .ok (.diff rt gt bt) := by
  revert rt gt bt
  decide

/-- R53: a word is read back from its bytes. -/
theorem ofBigEndian32_extract (w : Word32) :
    ofBigEndian32 (w.extractLsb' 24 8) (w.extractLsb' 16 8) (w.extractLsb' 8 8) (w.extractLsb' 0 8) = w := by
  have hhigh : w.extractLsb' 24 8 ++ w.extractLsb' 16 8 = w.extractLsb' 16 16 :=
    BitVec.extractLsb'_append_extractLsb'_eq_extractLsb' rfl
  have hmid : w.extractLsb' 16 16 ++ w.extractLsb' 8 8 = w.extractLsb' 8 24 :=
    BitVec.extractLsb'_append_extractLsb'_eq_extractLsb' rfl
  rw [ofBigEndian32, hhigh, hmid]
  exact BitVec.extractLsb'_append_extractLsb' (w := 24) (len := 8)

/-- R86: the header's fixed bytes are recognised, and W and H read back. -/
theorem decode_encode_header (w h : Word32) :
    decode blockConfig (encode blockConfig (.header w h)) = .ok (.header w h) := by
  simp [encode, decode, itemBytes, headerBytes, bigEndian32, magicBytes, decodeHeader, ofBigEndian32_extract]

/-- Settles O16: instruction by instruction, with the field ranges of R83 and R84 for the two forms of RUN. -/
theorem decodeEncodeAgree : Obligations.DecodeEncodeAgree := by
  intro i hwf
  cases i with
  | nop => rfl
  | start w h => exact decode_encode_start w h
  | data x => exact decode_encode_data x
  | endEncode => exact decode_encode_end
  | statusRead => rfl
  | index idx => revert idx; decide
  | diff rt gt bt => exact decode_encode_diff rt gt bt
  | luma g rt bt => exact decode_encode_luma g rt bt
  | runInterior n => revert n; decide
  | runFinal n => revert n; decide
  | rgb r g b => rfl
  | rgbaReserved => rfl
  | header w h => exact decode_encode_header w h
  | terminator => rfl

/-! ## Encoding what decodes -/

/-- The bytes of a word above its lowest byte. -/
theorem extract_append_byte {n : Nat} (x : BitVec n) (b : Byte) (k : Nat) :
    (x ++ b).extractLsb' (k + 8) 8 = x.extractLsb' k 8 := by
  rw [BitVec.extractLsb'_append_eq_of_le (by omega), Nat.add_sub_cancel]

/-- R53: the bytes of a word made of four bytes are these. -/
theorem bigEndian32_ofBigEndian32 (b3 b2 b1 b0 : Byte) :
    bigEndian32 (ofBigEndian32 b3 b2 b1 b0) = [b3, b2, b1, b0] := by
  have h3 : (ofBigEndian32 b3 b2 b1 b0).extractLsb' 24 8 = b3 :=
    calc (ofBigEndian32 b3 b2 b1 b0).extractLsb' 24 8 = (b3 ++ b2 ++ b1).extractLsb' 16 8 := extract_append_byte _ b0 16
      _ = (b3 ++ b2).extractLsb' 8 8 := extract_append_byte _ b1 8
      _ = b3 := BitVec.extractLsb'_append_eq_left
  have h2 : (ofBigEndian32 b3 b2 b1 b0).extractLsb' 16 8 = b2 :=
    calc (ofBigEndian32 b3 b2 b1 b0).extractLsb' 16 8 = (b3 ++ b2 ++ b1).extractLsb' 8 8 := extract_append_byte _ b0 8
      _ = (b3 ++ b2).extractLsb' 0 8 := extract_append_byte _ b1 0
      _ = b2 := BitVec.extractLsb'_append_eq_right
  have h1 : (ofBigEndian32 b3 b2 b1 b0).extractLsb' 8 8 = b1 :=
    (extract_append_byte (b3 ++ b2 ++ b1) b0 0).trans BitVec.extractLsb'_append_eq_right
  have h0 : (ofBigEndian32 b3 b2 b1 b0).extractLsb' 0 8 = b0 := BitVec.extractLsb'_append_eq_right
  rw [bigEndian32, h3, h2, h1, h0]

/-- A tag byte is its tag bits with its low six bits. -/
theorem tagged6_tagBits_low6 (b : Byte) : tagged6 (tagBits b) (low6 b) = b := by
  revert b
  decide

/-- R71: a command word is its selector with its payload. -/
theorem commandWord_extract_self (w : CmdWord) : commandWord (w.extractLsb' 64 2) (w.extractLsb' 0 64) = w :=
  BitVec.extractLsb'_append_extractLsb' (w := 2) (len := 64)

/-- R73: a payload is its two halves. -/
theorem extract_halves (w : CmdWord) : w.extractLsb' 32 32 ++ w.extractLsb' 0 32 = w.extractLsb' 0 64 :=
  BitVec.extractLsb'_append_extractLsb'_eq_extractLsb' rfl

/-- R73: a payload whose upper 56 bits are 0 is its lowest byte. -/
theorem setWidth_extract_of_high_eq_zero {w : CmdWord} (h : w.extractLsb' 8 56 = 0) :
    (w.extractLsb' 0 8).setWidth 64 = w.extractLsb' 0 64 :=
  calc (w.extractLsb' 0 8).setWidth 64 = 0#56 ++ w.extractLsb' 0 8 := BitVec.setWidth_eq_append (by decide)
    _ = w.extractLsb' 8 56 ++ w.extractLsb' 0 8 := by rw [h]; rfl
    _ = w.extractLsb' 0 64 := BitVec.extractLsb'_append_extractLsb'_eq_extractLsb' rfl

/-- R73, R74: what the decoder of command words reads is a command's own word. -/
theorem encode_of_decodeCommand {w : CmdWord} {i : Instr} (h : decodeCommand w = .ok i) :
    i.wf blockConfig = true ∧ encode blockConfig i = .command w := by
  have hother : ∀ op : BitVec 2, op ≠ 0 → op ≠ 1 → op ≠ 2 → op = 3 := by decide
  have hw := commandWord_extract_self w
  simp only [decodeCommand] at h
  split_ifs at h with h0 harg h1 h2 hhigh harg
  · cases h
    rw [h0, harg] at hw
    exact ⟨rfl, congrArg _ hw⟩
  · cases h
    rw [h1, ← extract_halves] at hw
    exact ⟨rfl, congrArg _ hw⟩
  · cases h
    rw [h2, ← setWidth_extract_of_high_eq_zero hhigh] at hw
    exact ⟨rfl, congrArg _ hw⟩
  · cases h
    rw [hother _ h0 h1 h2, harg] at hw
    exact ⟨rfl, congrArg _ hw⟩

/-- R76: each branch of the operation decoder fixes the bits it tests and reads all others. The interior RUN has no
field above 61, since 0xFE and 0xFF are tested first (R83). -/
theorem encode_of_decodeOperation {bs : List Byte} {i : Instr} (h : decodeOperation blockConfig bs = .ok i) :
    i.wf blockConfig = true ∧ encode blockConfig i = .item .operation bs := by
  cases bs with
  | nil => cases h
  | cons b rest =>
    have hb := tagged6_tagBits_low6 b
    simp only [decodeOperation] at h
    split_ifs at h with hrgb hreserved hempty hluma hrest hindex hdiff hrun
    · split at h
      · cases h
        exact ⟨rfl, by rw [hrgb]; rfl⟩
      · cases h
    · cases h
      exact ⟨rfl, by rw [hreserved, hempty]; rfl⟩
    · split at h
      · next b1 =>
        cases h
        have hsecond : ∀ b1 : Byte,
            ((b1.extractLsb' 4 4).setWidth 8 <<< 4) ||| (b1.extractLsb' 0 4).setWidth 8 = b1 := by decide
        rw [hluma] at hb
        refine ⟨rfl, ?_⟩
        rw [encode, itemBytes, hb, hsecond]
      · cases h
    all_goals obtain rfl := not_not.1 hrest; cases h
    · rw [hindex] at hb
      exact ⟨rfl, congrArg (Transfer.item .operation [·]) hb⟩
    · have hfields : ∀ b : Byte, tagBits b = 0x40 →
        itemBytes blockConfig (.diff (b.extractLsb' 4 2) (b.extractLsb' 2 2) (b.extractLsb' 0 2)) = [b] := by decide
      exact ⟨rfl, congrArg _ (hfields b hdiff)⟩
    · have hrange : ∀ b : Byte, b ≠ 0xFE → b ≠ 0xFF → tagBits b = 0xC0 → (low6 b).toNat ≤ 61 := by decide
      rw [hrun] at hb
      exact ⟨decide_eq_true (hrange b hrgb hreserved hrun), congrArg (Transfer.item .operation [·]) hb⟩

theorem encode_of_decodeFinalFlush {bs : List Byte} {i : Instr} (h : decodeFinalFlush blockConfig bs = .ok i) :
    i.wf blockConfig = true ∧ encode blockConfig i = .item .finalFlush bs := by
  unfold decodeFinalFlush at h
  split at h
  · next b =>
    have hb := tagged6_tagBits_low6 b
    split_ifs at h with hrun
    obtain ⟨htag, hwf⟩ := hrun
    cases h
    rw [htag] at hb
    exact ⟨hwf, congrArg (Transfer.item .finalFlush [·]) hb⟩
  · cases h

theorem encode_of_decodeHeader {bs : List Byte} {i : Instr} (h : decodeHeader bs = .ok i) :
    i.wf blockConfig = true ∧ encode blockConfig i = .item .header bs := by
  unfold decodeHeader at h
  split at h
  · split_ifs at h with hfixed
    obtain ⟨hmagic, hch, hcs⟩ := hfixed
    cases h
    refine ⟨rfl, ?_⟩
    rw [encode, itemBytes, headerBytes, ← hmagic, bigEndian32_ofBigEndian32, bigEndian32_ofBigEndian32, ← hch, ← hcs]
    rfl
  · cases h

theorem encode_of_decodeTerminator {bs : List Byte} {i : Instr} (h : decodeTerminator bs = .ok i) :
    i.wf blockConfig = true ∧ encode blockConfig i = .item .terminator bs := by
  unfold decodeTerminator at h
  split_ifs at h with hbytes
  cases h
  exact ⟨rfl, congrArg _ hbytes.symm⟩

/-- Settles O17: the decoder of each port and position reads only encodings. -/
theorem decodedTransferIsItsEncoding : Obligations.DecodedTransferIsItsEncoding := by
  intro t i h
  cases t with
  | command w => exact encode_of_decodeCommand h
  | statusRead => cases h; exact ⟨rfl, rfl⟩
  | item pos bs =>
    cases pos with
    | header => exact encode_of_decodeHeader h
    | operation => exact encode_of_decodeOperation h
    | finalFlush => exact encode_of_decodeFinalFlush h
    | terminator => exact encode_of_decodeTerminator h
  | takeByte => cases h
  | reset => cases h

/-! ## Command words in integer arithmetic -/

/-- A field of a command word, as the integer that stands in it. -/
theorem extract_eq_ofNat {w : CmdWord} {k n m : Nat} (h : w.toNat / 2 ^ k % 2 ^ n = m % 2 ^ n) :
    w.extractLsb' k n = BitVec.ofNat n m := by
  apply BitVec.eq_of_toNat_eq
  rw [BitVec.extractLsb'_toNat, Nat.shiftRight_eq_div_pow, h, BitVec.toNat_ofNat]

theorem extract_eq_zero_iff (w : CmdWord) (k n : Nat) : w.extractLsb' k n = 0 ↔ w.toNat / 2 ^ k % 2 ^ n = 0 := by
  rw [BitVec.toNat_eq, BitVec.extractLsb'_toNat, Nat.shiftRight_eq_div_pow]
  exact Iff.rfl

/-- Settles O15: each test and each field of `decodeCommand`, as a quotient and remainder of the word's value. -/
theorem commandWordsDecodeAsR73 : Obligations.CommandWordsDecodeAsR73 := by
  intro w
  have hlt := w.isLt
  have hop : w.toNat / 2 ^ 64 = (w.extractLsb' 64 2).toNat := by
    rw [BitVec.extractLsb'_toNat, Nat.shiftRight_eq_div_pow, Nat.mod_eq_of_lt (by omega)]
  have harg : w.extractLsb' 0 64 = 0 ↔ w.toNat % 2 ^ 64 = 0 := by
    rw [extract_eq_zero_iff, pow_zero, Nat.div_one]
  have hhigh : w.extractLsb' 8 56 = 0 ↔ w.toNat % 2 ^ 64 < 256 := by
    rw [extract_eq_zero_iff]
    omega
  have hw : w.extractLsb' 32 32 = BitVec.ofNat 32 (w.toNat % 2 ^ 64 / 2 ^ 32) := extract_eq_ofNat (by omega)
  have hh : w.extractLsb' 0 32 = BitVec.ofNat 32 (w.toNat % 2 ^ 32) := extract_eq_ofNat (by omega)
  have hx : w.extractLsb' 0 8 = BitVec.ofNat 8 (w.toNat % 256) := extract_eq_ofNat (by omega)
  simp only [decode, decodeCommand, harg, hhigh, hw, hh, hx, hop, BitVec.toNat_eq (x := w.extractLsb' 64 2)]
  rfl

/-! ## Words written out -/

/-- Settles O14, by running the decoder on each word. -/
theorem writtenWordsDecode : Obligations.WrittenWordsDecode := by
  unfold Obligations.WrittenWordsDecode
  decide

end Sys2Proof.Machine
end

section
/-! The stream items as instructions (spec 30 R80 to R88; 42 R124 to R137; 43 R160, R161; log 10), and the patterns that
the block never emits (30 R88). -/

namespace Sys2Proof.Machine

/-! ## The pixel of an item (log 10) -/

/-- R81: the field of a channel of DIFF's pixel is the item's. -/
theorem diffField_add_sub (x t : Byte) : diffField (x + t - 2#8) x = t := by
  change x + t - 2 - x + 2 = t
  ring

theorem diffFits_diffPixel (q : Pixel) (rt gt bt : BitVec 2) : diffFits (diffPixel q rt gt bt) q = true := by
  have hfits : ∀ t : BitVec 2, t.setWidth 8 ≤ 3#8 := by decide
  simp [diffFits, diffPixel, opaquePixel, diffField_add_sub, hfits]

theorem diffItem_diffPixel (q : Pixel) (rt gt bt : BitVec 2) : diffItem (diffPixel q rt gt bt) q = .diff rt gt bt := by
  simp [diffItem, diffPixel, opaquePixel, diffField_add_sub]

/-- R82: the green delta of LUMA's pixel is the item's, less its bias. -/
theorem delta8_add (x dg : Byte) : delta8 (x + dg) x = dg := by
  unfold delta8
  ring

/-- R82: the field of red or blue of LUMA's pixel is the item's. -/
theorem lumaTerm_add_sub (x dg t : Byte) : lumaTerm (x + dg + t - 8#8) x dg = t := by
  change x + dg + t - 8 - x - dg + 8 = t
  ring

theorem lumaGreen_lumaPixel (q : Pixel) (g : BitVec 6) (rt bt : BitVec 4) :
    lumaGreen (lumaPixel q g rt bt) q = g.toNat - 32 := by
  have hsigned : ∀ g : BitVec 6, sext8 (g.setWidth 8 - 32#8) = g.toNat - 32 := by decide
  simp [lumaGreen, lumaPixel, opaquePixel, delta8_add, hsigned]

theorem lumaFits_lumaPixel (q : Pixel) (g : BitVec 6) (rt bt : BitVec 4) : lumaFits (lumaPixel q g rt bt) q = true := by
  have hfits : ∀ t : BitVec 4, t.setWidth 8 ≤ 15#8 := by decide
  have hmax : g.toNat ≤ 63 := Nat.le_of_lt_succ g.isLt
  simp only [lumaFits, lumaGreen_lumaPixel]
  simp [lumaPixel, opaquePixel, delta8_add, lumaTerm_add_sub, hfits, hmax]

theorem lumaItem_lumaPixel (q : Pixel) (g : BitVec 6) (rt bt : BitVec 4) :
    lumaItem (lumaPixel q g rt bt) q = .luma g rt bt := by
  rw [lumaItem, lumaGreen_lumaPixel]
  simp [lumaPixel, opaquePixel, delta8_add, lumaTerm_add_sub]

/-! ## The items that complete -/

/-- The block's own values of the two open parameters (R33, log 2). -/
theorem blockConfig_eq : blockConfig = withParameters .decline 0 := rfl

/-- The state after an item's bytes, in one update. -/
theorem State.emitItem_eq (s : State) (c : Config) (i : Instr) :
    s.emitItem c i = { s with out := s.out ++ itemBytes c i } := rfl

/-- R139: with DECLINE the reference pixel is the previous one. -/
theorem deltaRef_blockConfig (s : State) : deltaRef blockConfig s = s.prev := by
  cases h : s.prev <;> simp [deltaRef, h, blockConfig]

/-- Settles O24: the pixel in the slot hashes there, so that the matcher finds it. -/
theorem indexItemCompletes : Obligations.IndexItemCompletes := by
  intro s idx hl hhash ha
  have hhit : indexHit s (s.cacheRead idx) = true := by simp [indexHit, hhash]
  have hop : (opIndex blockConfig (s.cacheRead idx) s).2 = s.emitItem blockConfig (.index idx) := by
    rw [opIndex, if_pos hhit, hhash]
  rw [exec, execIndex, State.guarded_of_legal hl, if_pos ⟨hhash, ha⟩, hop, State.emitItem_eq, blockConfig_eq,
    itemBytes_index]

/-- Settles O25: the item's pixel has its fields as deltas (`diffItem_diffPixel`), and they fit. -/
theorem diffItemCompletes : Obligations.DiffItemCompletes := by
  intro s q rt gt bt hl hprev
  have href := (deltaRef_blockConfig s).trans hprev
  have hop : (opDiff blockConfig (diffPixel q rt gt bt) s).2 = s.emitItem blockConfig (.diff rt gt bt) := by
    simp [opDiff, href, diffFits_diffPixel, diffItem_diffPixel]
  simp only [exec, execDiff, href]
  rw [State.guarded_of_legal hl, hop, State.emitItem_eq, blockConfig_eq, itemBytes_diff]

/-- Settles O26: the item's pixel has its fields as deltas (`lumaItem_lumaPixel`), and they fit. -/
theorem lumaItemCompletes : Obligations.LumaItemCompletes := by
  intro s q g rt bt hl hprev
  have href := (deltaRef_blockConfig s).trans hprev
  have hop : (opLuma blockConfig (lumaPixel q g rt bt) s).2 = s.emitItem blockConfig (.luma g rt bt) := by
    simp [opLuma, href, lumaFits_lumaPixel, lumaItem_lumaPixel]
  simp only [exec, execLuma, href]
  rw [State.guarded_of_legal hl, hop, State.emitItem_eq, blockConfig_eq, itemBytes_luma]

/-- Settles O27: with n + 1 pending the item is due, and is the interior flush. -/
theorem runInteriorItemCompletes : Obligations.RunInteriorItemCompletes := by
  intro s q n hl hprev hrun
  have hpending : s.run ≠ 0 := by bv_omega
  have hfield : n = interiorField s.run := by unfold interiorField; bv_omega
  have hbytes : itemBytes blockConfig (.runInterior (interiorField s.run)) = [byteOf (192 + n.toNat)] := by
    rw [blockConfig_eq, itemBytes_runInterior _ _ hpending, hrun]
    simp
  rw [exec, execRunInterior, State.guarded_of_legal hl, if_pos ⟨by simp [hprev], hpending, hfield⟩, interiorFlush_eq,
    hbytes]
  rfl

/-- Settles O28: with bias 0 the item of the pending counter is due, and is the final flush. -/
theorem runFinalItemCompletes : Obligations.RunFinalItemCompletes := by
  rintro s n hl hpending rfl
  have hfield : s.run = finalField blockConfig s.run := (BitVec.sub_zero s.run).symm
  rw [exec, execRunFinal, State.guarded_of_legal hl, if_pos hfield, finalFlush_eq, if_pos hpending,
    itemBytes_runFinal_blockConfig]
  rfl

/-- Settles O29: RGB has no condition. -/
theorem rgbItemCompletes : Obligations.RgbItemCompletes := fun _ _ _ _ hl => State.guarded_of_legal hl _

/-- Settles O30: `headerBytes_eq_refHeader` compares the header with the reference's. -/
theorem headerItemCompletes : Obligations.HeaderItemCompletes := by
  intro s w h hl
  rw [← headerBytes_eq_refHeader]
  exact State.guarded_of_legal hl _

/-- Settles O31: TERMINATOR has no condition. -/
theorem terminatorItemCompletes : Obligations.TerminatorItemCompletes := fun _ hl => State.guarded_of_legal hl _

/-- Settles O32: in a legal state the guard leaves the refusal standing. -/
theorem rgbaReservedStops : Obligations.RgbaReservedStops := fun _ hl => State.guarded_of_legal hl _

/-! ## The patterns that are never emitted (R88) -/

/-- Bytes of an item that is none of R88's patterns: they begin neither with 0xFF nor with the all-zero DIFF 0x6A, and
are not the all-zero LUMA. -/
def Unreserved (bs : List Byte) : Prop :=
  bs ≠ [] ∧ bs.head? ≠ some 0xFF ∧ bs.head? ≠ some 0x6A ∧ bs ≠ [0xA0, 0x88]

theorem unreserved_index (idx : BitVec 6) : Unreserved (itemBytes blockConfig (.index idx)) := by
  unfold Unreserved
  revert idx
  decide

theorem unreserved_rgb (r g b : Byte) : Unreserved (itemBytes blockConfig (.rgb r g b)) := by
  simp [Unreserved, itemBytes, blockConfig]

theorem unreserved_diff {rt gt bt : BitVec 2} (h : ¬(rt = 2 ∧ gt = 2 ∧ bt = 2)) :
    Unreserved (itemBytes blockConfig (.diff rt gt bt)) := by
  unfold Unreserved
  revert rt gt bt
  decide

theorem unreserved_luma {g : BitVec 6} {rt bt : BitVec 4} (h : ¬(g = 32 ∧ rt = 8 ∧ bt = 8)) :
    Unreserved (itemBytes blockConfig (.luma g rt bt)) := by
  have hfirst : ∀ g : BitVec 6, tagged6 0x80 g ≠ 0xFF ∧ tagged6 0x80 g ≠ 0x6A := by decide
  obtain ⟨hff, h6a⟩ := hfirst g
  refine ⟨List.cons_ne_nil _ _, hff ∘ Option.some.inj, h6a ∘ Option.some.inj, fun hzero => h ?_⟩
  have hdec := decode_encode_luma g rt bt
  rw [encode, hzero] at hdec
  injection hdec with hdec
  injection hdec with hg hr hb
  exact ⟨hg.symm, hr.symm, hb.symm⟩

/-- R132: channels with the biased delta 2 are equal. -/
theorem eq_of_diffField {cur ref : Byte} (h : diffField cur ref ≤ 3) (hzero : (diffField cur ref).setWidth 2 = 2) :
    cur = ref := by
  unfold diffField delta8 at h hzero
  bv_omega

/-- Red or blue channels with the biased term 8 are equal where the green delta is 0. -/
theorem eq_of_lumaTerm {cur ref : Byte} (h : lumaTerm cur ref 0 ≤ 15) (hzero : (lumaTerm cur ref 0).setWidth 4 = 8) :
    cur = ref := by
  unfold lumaTerm delta8 at h hzero
  bv_omega

/-- Green channels with the biased delta 32 have no delta. -/
theorem delta8_eq_zero_of_lumaGreen {p q : Pixel} (h : -32 ≤ lumaGreen p q ∧ lumaGreen p q ≤ 31)
    (hzero : BitVec.ofInt 6 (lumaGreen p q + 32) = 32) : delta8 p.g q.g = 0 := by
  have hfield := toNat_ofInt_greenField h
  rw [hzero] at hfield
  have hthirtytwo : ((32 : BitVec 6).toNat : Int) = 32 := rfl
  have hgreen : lumaGreen p q = 0 := by omega
  exact BitVec.toInt_inj.1 hgreen

theorem Pixel.eq_of_channels {p q : Pixel} (hr : p.r = q.r) (hg : p.g = q.g) (hb : p.b = q.b) (ha : p.a = q.a) :
    p = q := by
  cases p
  cases q
  exact Pixel.mk.injEq .. ▸ ⟨hr, hg, hb, ha⟩

section
variable {p q : Pixel} (ha : p.a = q.a) (hne : p ≠ q)
include ha hne

/-- R132: DIFF on a pixel that is not the previous one has a delta. -/
theorem unreserved_diffItem (h : diffFits p q = true) : Unreserved (itemBytes blockConfig (diffItem p q)) := by
  obtain ⟨⟨hr, hg⟩, hb⟩ : (diffField p.r q.r ≤ 3 ∧ diffField p.g q.g ≤ 3) ∧ diffField p.b q.b ≤ 3 := by
    simpa [diffFits] using h
  refine unreserved_diff fun ⟨hr2, hg2, hb2⟩ => hne ?_
  exact Pixel.eq_of_channels (eq_of_diffField hr hr2) (eq_of_diffField hg hg2) (eq_of_diffField hb hb2) ha

/-- R88: LUMA on a pixel that is not the previous one has a delta. -/
theorem unreserved_lumaItem (h : lumaFits p q = true) : Unreserved (itemBytes blockConfig (lumaItem p q)) := by
  obtain ⟨⟨hg, hr⟩, hb⟩ : ((-32 ≤ lumaGreen p q ∧ lumaGreen p q ≤ 31) ∧
      lumaTerm p.r q.r (delta8 p.g q.g) ≤ 15) ∧ lumaTerm p.b q.b (delta8 p.g q.g) ≤ 15 := by
    simpa [lumaFits] using h
  refine unreserved_luma fun ⟨hg0, hr0, hb0⟩ => hne ?_
  have hdelta := delta8_eq_zero_of_lumaGreen hg hg0
  rw [hdelta] at hr hb hr0 hb0
  exact Pixel.eq_of_channels (eq_of_lumaTerm hr hr0) (sub_eq_zero.1 hdelta) (eq_of_lumaTerm hb hb0) ha

end

/-- R141: whichever encoder of the chain accepts, its item is unreserved. -/
theorem unreserved_chosenItem {s : State} {p : Pixel} (ha : p.a = 255) (hq : ∀ q, s.prev = some q → q.a = 255)
    (hne : s.prev ≠ some p) : Unreserved (itemBytes blockConfig (chosenItem blockConfig p s)) := by
  rw [chosenItem, deltaRef_blockConfig]
  split
  · exact unreserved_index _
  · split
    · exact unreserved_rgb _ _ _
    · next q hprev =>
      have haq : p.a = q.a := ha.trans (hq q hprev).symm
      have hpq : p ≠ q := fun e => hne (e ▸ hprev)
      split_ifs with hdiff hluma
      · exact unreserved_diffItem haq hpq hdiff
      · exact unreserved_lumaItem haq hpq hluma
      · exact unreserved_rgb _ _ _

/-- R83, R84: the bytes of the two flushes of a pending run, in a legal state. -/
theorem flushByte_bounds {run : BitVec 6} (h0 : run ≠ 0) (h63 : run ≠ 63) :
    (0xC0 ≤ byteOf (191 + run.toNat) ∧ byteOf (191 + run.toNat) ≤ 0xFD) ∧
      0xC1 ≤ byteOf (192 + run.toNat) ∧ byteOf (192 + run.toNat) ≤ 0xFE := by
  revert run
  decide

/-- Settles O44: the bytes of a pixel step are a flush byte (`flushByte_bounds`) and the chosen item
(`unreserved_chosenItem`); those of the final flush are one flush byte. -/
theorem noReservedPatternEmitted : Obligations.NoReservedPatternEmitted := by
  constructor
  · intro s p hl ha hq flush
    obtain ⟨-, h63, -⟩ := (State.legal_iff s).1 hl
    have hflush : flushBytes blockConfig p s = flush := by
      have hbyte : (192 : Int) + (s.run.toNat - 1) = 191 + s.run.toNat := by ring
      rw [blockConfig_eq, flushBytes_eq, refFlush, hbyte]
      simp [flush, BitVec.toNat_eq]
    refine ⟨?_, if s.prev = some p then [] else itemBytes blockConfig (chosenItem blockConfig p s), ?_, ?_⟩
    · intro b hb
      simp only [flush] at hb
      split_ifs at hb with hdue
      · obtain ⟨-, h0, -⟩ := hdue
        rw [List.mem_singleton.1 hb]
        exact (flushByte_bounds h0 h63).1
      · cases hb
    · rw [encodePixel_out, pixelBytes, hflush, List.append_assoc]
    · split_ifs with hprev
      · simp [hprev]
      · obtain ⟨hnil, hff, h6a, hluma⟩ := unreserved_chosenItem ha hq hprev
        exact ⟨iff_of_false hnil hprev, hff, h6a, hluma⟩
  · intro s hl h0
    obtain ⟨-, h63, -⟩ := (State.legal_iff s).1 hl
    refine ⟨byteOf (192 + s.run.toNat), ?_, (flushByte_bounds h0 h63).2⟩
    rw [finalFlush_eq, if_pos h0, itemBytes_runFinal_blockConfig, State.emitted_out]

end Sys2Proof.Machine
end

section
/-! Proof of the statement about the pixel input (spec 41 R110; 44 R173, R179). -/

namespace Sys2Proof.Machine

/-- R173, R179: DATA outside STREAM is refused. -/
theorem exec_data_refused {s : State} (hl : s.Legal) (hp : s.phase ≠ phaseStream) (x : Byte) :
    exec (.data x) s = .refused .dataOutsideStream := by
  change execData x s = _
  rw [execData, State.guarded_of_legal hl, if_pos hp]

/-- Settles O20: in STREAM DATA is `acceptByte` (`exec_data`), which has an equation for each number of held bytes. -/
theorem dataAcceptsByte : Obligations.DataAcceptsByte := by
  refine fun s x hl => ⟨fun hp => ?_, fun hp => exec_data_refused hl hp x⟩
  rw [exec_data hl hp]
  refine ⟨fun hn => ?_, fun hn => ?_, fun hn => ?_⟩
  · rw [acceptByte_of_fragLen_zero hn]
  · rw [acceptByte_of_fragLen_one hn]
  · rw [acceptByte_of_fragLen_two hn]
    rfl

end Sys2Proof.Machine
end

section
/-! The operands of the engine's operations in integer arithmetic (spec 42 R122, R123, R129, R131, R135): the hash as a
weighted sum, the wrapped deltas, and the pixels that DIFF and LUMA accept. -/

namespace Sys2Proof.Machine

/-! ## The hash -/

theorem toNat_pixelHash (p : Pixel) :
    (pixelHash p).toNat = (p.r.toNat * 3 + p.g.toNat * 5 + p.b.toNat * 7 + p.a.toNat * 11) % 64 := by
  rw [pixelHash, BitVec.toNat_ofNat, Nat.mod_mod]

/-- R122: the weighted sum of four numbers in k bits is the exact sum mod 2^k. -/
theorem toNat_weightedSum (k r g b a : Nat) :
    (BitVec.ofNat k r * 3 + BitVec.ofNat k g * 5 + BitVec.ofNat k b * 7 + BitVec.ofNat k a * 11).toNat =
      (r * 3 + g * 5 + b * 7 + a * 11) % 2 ^ k := by
  have hsum : BitVec.ofNat k r * 3 + BitVec.ofNat k g * 5 + BitVec.ofNat k b * 7 + BitVec.ofNat k a * 11 =
      BitVec.ofNat k (r * 3 + g * 5 + b * 7 + a * 11) := by
    simp only [BitVec.ofNat_add, BitVec.ofNat_mul]
    rfl
  rw [hsum, BitVec.toNat_ofNat]

/-- Settles O45: a modulus 2^k with k at least 6 is a multiple of 64, so the wrapped sum (`toNat_weightedSum`) has the
exact sum's value mod 64. -/
theorem hashIsSumModSixtyFour : Obligations.HashIsSumModSixtyFour := by
  intro p
  refine ⟨?_, toNat_pixelHash p, fun k hk => ?_⟩
  · have hr := p.r.isLt
    have hg := p.g.isLt
    have hb := p.b.isLt
    have ha := p.a.isLt
    omega
  · have hdvd : 64 ∣ 2 ^ k := pow_dvd_pow 2 hk
    rw [toNat_weightedSum, Nat.mod_mod_of_dvd _ hdvd, toNat_pixelHash]

/-- Settles O46: the alpha of an input pixel adds 255 * 11 = 2805, which is 53 mod 64. -/
theorem hashOfInputPixel : Obligations.HashOfInputPixel := by
  refine ⟨fun r g b => ?_, by decide, by decide, by decide, by decide⟩
  have hsum : (pixelHash ⟨r, g, b, 255⟩).toNat =
      (r.toNat * 3 + g.toNat * 5 + b.toNat * 7 + 255 * 11) % 64 := toNat_pixelHash _
  omega

/-! ## Deltas -/

theorem signedDelta_emod (cur ref : Byte) : signedDelta cur ref % 256 = ((cur.toNat : Int) - ref.toNat) % 256 := by
  rw [signedDelta]
  split_ifs <;> omega

/-- Settles O47: `toNat_delta8` and `toInt_delta8` are the wrapped and the signed reading of one delta. -/
theorem channelDeltaIsWrappedAndSigned : Obligations.ChannelDeltaIsWrappedAndSigned := fun cur ref =>
  ⟨(toNat_delta8 cur ref).trans (signedDelta_emod cur ref), toInt_delta8 cur ref, signedDelta_bounds cur ref⟩

theorem toNat_diffField_of_le {cur ref : Byte} (h : diffField cur ref ≤ 3) :
    ((diffField cur ref).toNat : Int) = signedDelta cur ref + 2 := by
  have hfield := toNat_diffField cur ref
  have hrange := (diffField_le_iff cur ref).1 h
  omega

/-- R133, R135: with a green delta in [-32,31], an accepted biased term is the unwrapped difference plus 8. -/
theorem toNat_lumaTerm_of_le {cur ref p q : Byte} (hgreen : -32 ≤ signedDelta p q ∧ signedDelta p q ≤ 31)
    (h : lumaTerm cur ref (delta8 p q) ≤ 15) :
    ((lumaTerm cur ref (delta8 p q)).toNat : Int) = signedDelta cur ref - signedDelta p q + 8 := by
  have hterm := toNat_lumaTerm cur ref p q
  have hrange := (lumaTerm_le_iff hgreen).1 h
  omega

/-! ## The pixels that DIFF and LUMA accept -/

theorem diffFits_iff (p q : Pixel) :
    diffFits p q = true ↔ diffField p.r q.r ≤ 3 ∧ diffField p.g q.g ≤ 3 ∧ diffField p.b q.b ≤ 3 := by
  simp [diffFits, and_assoc]

/-- R134: LUMA's condition, with the green delta as the signed delta of R129. -/
theorem lumaFits_iff (p q : Pixel) :
    lumaFits p q = true ↔ (-32 ≤ signedDelta p.g q.g ∧ signedDelta p.g q.g ≤ 31) ∧
      lumaTerm p.r q.r (delta8 p.g q.g) ≤ 15 ∧ lumaTerm p.b q.b (delta8 p.g q.g) ≤ 15 := by
  have hgreen : lumaGreen p q = signedDelta p.g q.g := toInt_delta8 p.g q.g
  simp [lumaFits, hgreen, and_assoc]

/-- Settles O48: channel by channel (`diffField_le_iff`). -/
theorem diffAcceptsSmallSignedDeltas : Obligations.DiffAcceptsSmallSignedDeltas := by
  intro p q
  rw [diffFits_iff]
  constructor
  · rw [diffField_le_iff, diffField_le_iff, diffField_le_iff]
  · rintro ⟨hr, hg, hb⟩
    exact ⟨toNat_diffField_of_le hr, toNat_diffField_of_le hg, toNat_diffField_of_le hb⟩

/-- Settles O49: once the green delta is in range, the two terms decide the two relative deltas (`lumaTerm_le_iff`). -/
theorem lumaAcceptsGreenRelativeDeltas : Obligations.LumaAcceptsGreenRelativeDeltas := by
  intro p q
  rw [lumaFits_iff]
  constructor
  · exact and_congr_right fun hgreen => and_congr (lumaTerm_le_iff hgreen) (lumaTerm_le_iff hgreen)
  · rintro ⟨hgreen, hr, hb⟩
    exact ⟨toNat_lumaTerm_of_le hgreen hr, toNat_lumaTerm_of_le hgreen hb⟩

end Sys2Proof.Machine
end

section
/-! The pixel step's bytes and registers (spec 42 R128, R140 to R143), the first pixel and the runs of an encode (R124,
R125, R142; 43 R160), and the items whose operation declines (42 R121, R127, R139). -/

namespace Sys2Proof.Machine

/-! ## One pixel step -/

/-- R143: the bytes of a pixel step under the block's own parameters. -/
theorem encodePixel_blockConfig_out (p : Pixel) (s : State) :
    (encodePixel blockConfig p s).out =
      s.out ++ refPixel .decline s.prev s.run.toNat (decide (s.cacheRead (pixelHash p) = p)) p := by
  rw [encodePixel_out, blockConfig_eq, pixelBytes_eq]

/-- Settles O40: a pixel step appends `pixelBytes`, which are the reference's. -/
theorem pixelStepEmitsTableBytes : Obligations.PixelStepEmitsTableBytes := by
  intro pol bias s p hl
  rw [encodePixel_out, pixelBytes_eq]

/-- Settles O42: `encodePixel_cacheRead` reads the slots, and `encodePixel_eq` is the whole step in one update. -/
theorem updateFollowsEveryPixel : Obligations.UpdateFollowsEveryPixel := by
  intro c s p
  refine ⟨?_, fun k hk => ?_, ?_⟩
  · rw [encodePixel_cacheRead, if_pos rfl]
  · rw [encodePixel_cacheRead, if_neg hk]
  · rw [encodePixel_eq]
    rfl

/-- R124: no run is pending after a pixel that differs from the one before it. -/
theorem encodePixel_run_of_ne (c : Config) {p q : Pixel} {s : State} (hl : s.Legal) (hprev : s.prev = some p)
    (hne : p ≠ q) : (encodePixel c q s).run.toNat = 0 := by
  simp [encodePixel_run_toNat c q hl, hprev, refRun, hne]

/-- With no run pending, a pixel that differs from the previous one q appends its item against q. -/
theorem encodePixel_out_of_no_run {p q : Pixel} {s : State} (hprev : s.prev = some q) (hrun : s.run.toNat = 0)
    (hne : q ≠ p) : (encodePixel blockConfig p s).out =
      s.out ++ refItem (decide (s.cacheRead (pixelHash p) = p)) (some q) p := by
  simp [encodePixel_blockConfig_out, hprev, hrun, refPixel, refFlush, refReference, hne]

/-- Settles O43: the slot of p's hash holds q where the hashes are equal, and p where they are not. -/
theorem recurringPixelIsIndexUnlessEvicted : Obligations.RecurringPixelIsIndexUnlessEvicted := by
  intro s p q hl hne t
  have hprev : t.prev = some q := encodePixel_prev ..
  have hrun : t.run.toNat = 0 :=
    encodePixel_run_of_ne _ (encodePixel_legal _ p hl) (encodePixel_prev ..) hne
  have hslot : t.cacheRead (pixelHash p) = if pixelHash p = pixelHash q then q else p := by
    simp [t, encodePixel_cacheRead]
  rw [encodePixel_out_of_no_run hprev hrun hne.symm, hslot]
  refine ⟨fun hhash => ?_, fun hhash => ?_⟩
  · simp [Ne.symm hhash, refItem]
  · simp [hhash, hne.symm]

/-! ## The first pixel -/

/-- R142: after START no slot holds a pixel of the input and there is no reference, so that only RGB accepts. -/
theorem encodePixel_startEncode_out (w h : Word32) (r g b : Byte) (s : State) :
    (encodePixel blockConfig (opaquePixel r g b) (startEncode blockConfig w h s)).out =
      refHeader w h ++ [0xFE, r, g, b] := by
  have hstart := startEncode_remembers blockConfig w h s
  have hout : (startEncode blockConfig w h s).out = refHeader w h := by
    rw [startEncode_eq, headerBytes_eq_refHeader]
  rw [encodePixel_blockConfig_out, hstart.hit_eq_refHit rfl, hstart.prev, hout]
  rfl

/-- Settles O52: the three bytes are one pixel step from START's state (`encodePixel_startEncode_out`). -/
theorem firstPixelIsRgb : Obligations.FirstPixelIsRgb := by
  intro s w h r g b hl hp
  obtain ⟨hls, hps⟩ := startEncode_ready w h s
  have hfrag : (startEncode blockConfig w h s).fragLen = 0 := by rw [startEncode_eq]
  obtain ⟨n, a, b', -, heq⟩ := acceptBytes_eq_encodePixels blockConfig [r, g, b] hfrag
  refine ⟨_, (execAll_cons_of_next (exec_start hl hp w h) _).trans (execAll_data hls hps [r, g, b]), ?_⟩
  rw [heq]
  exact encodePixel_startEncode_out w h r g b s

/-! ## Runs of equal pixels -/

theorem pixelsOf_flatten_replicate (n : Nat) (r g b : Byte) :
    pixelsOf (List.replicate n [r, g, b]).flatten = List.replicate n (opaquePixel r g b) := by
  induction n with
  | zero => rfl
  | succ n ih =>
    rw [List.replicate_succ, List.replicate_succ, List.flatten_cons, ← ih]
    rfl

/-- R124: a continuation appends the flush of a full run, or nothing. -/
theorem refPixel_self (pol : PrevInitPolicy) (hit : Bool) (run : Nat) (p : Pixel) :
    refPixel pol (some p) run hit p = if run = 62 then [0xFD] else [] := by
  have hbyte : byteOf 253 = 253#8 := rfl
  by_cases hfull : run = 62
  · simp [refPixel, refFlush, hfull, hbyte]
  · simp [refPixel, refFlush, hfull]

/-- R124, R125, R160: n more pixels equal to the previous one, with `run` pending, make m + 1 in all: a flush of every
full run that another pixel follows, and the final flush of the rest. -/
theorem refOps_replicate_self (pol : PrevInitPolicy) (p : Pixel) (earlier : List Pixel) {n run m : Nat}
    (hrun : run ≤ 62) (hm : run + n = m + 1) :
    refOps pol 0 (p :: earlier) run (List.replicate n p) =
      List.replicate (m / 62) 0xFD ++ [byteOf (192 + (m % 62 + 1 : Nat))] := by
  induction n generalizing earlier run m with
  | zero =>
    obtain rfl : run = m + 1 := hm
    have hdiv : m / 62 = 0 := by omega
    have hmod : m % 62 = m := by omega
    simp [refOps, hdiv, hmod]
  | succ n ih =>
    rw [List.replicate_succ, refOps, List.head?_cons, refPixel_self, refRun, if_pos rfl]
    split_ifs with hfull
    · have hdiv : m / 62 = n / 62 + 1 := by omega
      have hmod : m % 62 = n % 62 := by omega
      rw [ih (p :: earlier) (by omega) (Nat.add_comm 1 n), hdiv, hmod, List.replicate_succ]
      rfl
    · exact ih (p :: earlier) (by omega) (by omega)

/-- R142: the reference's first pixel, under DECLINE. -/
theorem refOps_first (bias : Nat) (r g b : Byte) (ps : List Pixel) :
    refOps .decline bias [] 0 (opaquePixel r g b :: ps) =
      [0xFE, r, g, b] ++ refOps .decline bias [opaquePixel r g b] 0 ps := rfl

/-- Settles O53: the block's stream is the reference's (`encodeImage_out`), and `refOps_replicate_self` counts its runs.
-/
theorem equalPixelsSplitIntoRuns : Obligations.EqualPixelsSplitIntoRuns := by
  intro s w h r g b k hl hp
  have hdata : (List.replicate (k + 2) [Instr.data r, .data g, .data b]).flatten =
      (List.replicate (k + 2) [r, g, b]).flatten.map .data := by
    simp [List.map_flatten]
  refine ⟨_, hdata ▸ execAll_image hl hp w h _, ?_⟩
  rw [encodeImage_out, refStream, pixelsOf_flatten_replicate, List.replicate_succ, refOps_first,
    refOps_replicate_self .decline _ [] (Nat.zero_le 62) (Nat.zero_add (k + 1))]
  simp

/-! ## The items that decline (log 10) -/

/-- R83, R124: a field that is `run - 1` of a pending run is one below the counter. -/
theorem toNat_run_of_interiorField {run n : BitVec 6} (h0 : run ≠ 0) (hn : n = interiorField run) :
    run.toNat = n.toNat + 1 := by
  unfold interiorField at hn
  bv_omega

/-- R160: without a pending run there is nothing to flush. -/
theorem finalFlush_of_run_zero (c : Config) {s : State} (h : s.run = 0) : finalFlush c s = s := by
  rw [finalFlush, if_neg (not_not.2 h)]

/-- Settles O33: each clause denies the condition that its item's operation has (42 R124, R127, R139; 43 R160). -/
theorem itemsDeclineWithoutEffect : Obligations.ItemsDeclineWithoutEffect := by
  intro s hl
  refine ⟨fun idx h => ?_, fun rt gt bt hprev => ?_, fun g rt bt hprev => ?_, fun n h => ?_, fun n h => ?_⟩
  · have hmiss : ¬(pixelHash (s.cacheRead idx) = idx ∧ (s.cacheRead idx).a = alphaSynth) := not_and_or.2 h
    rw [exec, execIndex, State.guarded_of_legal hl, if_neg hmiss]
  · rw [exec, execDiff, State.guarded_of_legal hl, deltaRef_blockConfig, hprev]
  · rw [exec, execLuma, State.guarded_of_legal hl, deltaRef_blockConfig, hprev]
  · have hnotDue : ¬(s.prev.isSome ∧ s.run ≠ 0 ∧ n = interiorField s.run) := by
      rintro ⟨hprev, h0, hn⟩
      rcases h with h | h | h
      · simp [h] at hprev
      · exact h0 h
      · exact h (toNat_run_of_interiorField h0 hn)
    rw [exec, execRunInterior, State.guarded_of_legal hl, if_neg hnotDue]
  · have hfield : finalField blockConfig s.run = s.run := BitVec.sub_zero s.run
    rw [exec, execRunFinal, State.guarded_of_legal hl, hfield]
    rcases h with h0 | hne
    · rw [finalFlush_of_run_zero _ h0, ite_self]
    · rw [if_neg (Ne.symm hne)]

end Sys2Proof.Machine
end

section
/-! The final flush under both values of FINAL_RUN_BIAS (spec 43 R160; 30 R84). -/

namespace Sys2Proof.Machine

/-- R84: a pending run is at least 1, so taking the bias off the counter does not wrap. -/
theorem toNat_finalField (pol : PrevInitPolicy) (bias : Fin 2) {run : BitVec 6} (h : run ≠ 0) :
    ((finalField (withParameters pol bias) run).toNat : Int) = run.toNat - bias.val := by
  change ((run - BitVec.ofNat 6 bias.val).toNat : Int) = _
  bv_omega

/-- R84, R160: the final flush byte carries the counter less the bias. -/
theorem itemBytes_runFinal (pol : PrevInitPolicy) (bias : Fin 2) {run : BitVec 6} (h : run ≠ 0) :
    itemBytes (withParameters pol bias) (.runFinal (finalField (withParameters pol bias) run)) =
      [byteOf (192 + ((run.toNat : Int) - bias.val))] := by
  have hfield (n : BitVec 6) : finalField blockConfig n = n := BitVec.sub_zero n
  rw [itemBytes_withParameters, ← toNat_finalField pol bias h, ← itemBytes_runFinal_blockConfig, hfield]

/-- R160: the final flush of a pending run, in one update. -/
theorem finalFlush_of_run_pending (pol : PrevInitPolicy) (bias : Fin 2) {s : State} (h : s.run ≠ 0) :
    finalFlush (withParameters pol bias) s =
      { s with run := 0, out := s.out ++ [byteOf (192 + ((s.run.toNat : Int) - bias.val))] } := by
  rw [finalFlush_eq, if_pos h, itemBytes_runFinal pol bias h]
  rfl

/-- Settles O50: without a run there is nothing to flush, a pending run has its one update, and 62 is a pending run. -/
theorem finalFlushEmitsUnbiasedCounter : Obligations.FinalFlushEmitsUnbiasedCounter := by
  refine fun pol bias s => ⟨finalFlush_of_run_zero _, finalFlush_of_run_pending pol bias, fun h62 => ?_⟩
  have hpending : s.run ≠ 0 := by
    rw [h62]
    decide
  rw [finalFlush_of_run_pending pol 0 hpending, h62]
  rfl

end Sys2Proof.Machine
end

section
/-! Proofs of the statements about the host's interface (spec 44 R170 to R180; 10 R27): the command words and their
phases, the status read, the output port, the most a command emits, and the hold of a finite output buffer. -/

namespace Sys2Proof.Machine

/-! ## The commands in their phases -/

/-- R172: NOP has no effect. -/
theorem exec_nop {s : State} (hl : s.Legal) : exec .nop s = .next s :=
  (execNop_next_iff s s).2 ⟨hl, rfl⟩

/-- R179: START in STREAM is refused. -/
theorem exec_start_refused {s : State} (hl : s.Legal) (hp : s.phase = phaseStream) (w h : Word32) :
    exec (.start w h) s = .refused .startWhileStreaming := by
  change execStart w h s = _
  rw [execStart, State.guarded_of_legal hl, if_pos hp]

/-- R179: END outside STREAM is refused. -/
theorem exec_end_refused {s : State} (hl : s.Legal) (hp : s.phase ≠ phaseStream) :
    exec .endEncode s = .refused .endOutsideStream := by
  obtain ⟨hend, -⟩ := endFinishesEncode
  exact (hend s hl).2 hp

/-- R72, R73: a command word with selector 0 is NOP where its payload is 0. -/
theorem decode_commandWord_nop (arg : BitVec 64) :
    decode blockConfig (.command (commandWord 0 arg)) = if arg = 0 then .ok .nop else .error .illegalWord := by
  simp [decode, decodeCommand, Laws.TransferShape.commandWord_op, commandWord_arg]

/-- Settles O18: NOP answers the state it found, and its word is the one with payload 0. -/
theorem nopHasNoEffect : Obligations.NopHasNoEffect := ⟨fun _ => exec_nop, decode_commandWord_nop⟩

/-- Settles O19: `startEncode_eq` is START's step in one update, with free values in `frag` and in their counter. -/
theorem startBeginsEncode : Obligations.StartBeginsEncode := by
  refine fun s w h hl => ⟨fun hp => ?_, fun hp => exec_start_refused hl hp w h⟩
  rw [exec_start hl hp, startEncode_eq, headerBytes_eq_refHeader]
  exact ⟨_, _, _, rfl⟩

/-- Settles O23: in STREAM and outside it, each command goes on to its step or is refused. -/
theorem phaseLegalityTable : Obligations.PhaseLegalityTable := by
  refine fun s w h x hl => ⟨exec_nop hl, fun hp => ⟨exec_start_refused hl hp w h, ?_, ?_⟩, fun hp => ?_⟩
  · exact ⟨_, exec_data hl hp x, (acceptByte_ready hl hp x).2⟩
  · exact ⟨_, exec_end hl hp, rfl⟩
  · have hns : s.phase ≠ phaseStream := by
      rcases hp with hp | hp <;> rw [hp] <;> decide
    exact ⟨⟨_, exec_start hl hns w h, (startEncode_ready w h s).2⟩, exec_data_refused hl hns x,
      exec_end_refused hl hns⟩

/-! ## The status read and the output port -/

/-- R27: STATUS is the phase's code, its other bits zero. -/
theorem State.status_eq (s : State) : s.status = BitVec.ofNat 32 s.phase.toNat := (BitVec.ofNat_toNat 32 s.phase).symm

/-- Settles O22: the read returns `State.status`, which is the phase's code. -/
theorem statusReadReturnsPhase : Obligations.StatusReadReturnsPhase := by
  refine fun s hl => ⟨?_, fun hp => ?_, fun hp => ?_, fun hp => ?_⟩
  · rw [← s.status_eq]
    exact (execStatusRead_next_iff s _).2 ⟨hl, rfl⟩
  all_goals rw [s.status_eq, hp]; rfl

/-- Settles O11: the step is `deliver`, which has an equation for a byte waiting and one for none. -/
theorem takenByteIsNextOfOut : Obligations.TakenByteIsNextOfOut := by
  intro s rest hl hport
  rw [step_of_takeByte hl hport]
  refine ⟨fun b hb => ?_, fun hnone => ?_⟩
  · rw [deliver_of_waiting (s := { s with port := rest }) hb]
  · rw [deliver_of_empty (s := { s with port := rest }) (List.getElem?_eq_none hnone)]

/-! ## What a command may change -/

/-- R110: a byte of a pixel writes no other register than the input's, the engine's and `out`; it is held, and then it
writes the input's registers alone, or it completes the pixel, and then it leaves the held bytes. -/
theorem acceptByte_registers (c : Config) (x : Byte) {s t : State} (hl : s.Legal) (ht : t = acceptByte c x s) :
    t = { s with
      cache := t.cache, prev := t.prev, run := t.run, fragLen := t.fragLen, frag0 := t.frag0, frag1 := t.frag1,
      out := t.out } ∧
    (s.fragLen ≠ 2 → t.cache = s.cache ∧ t.prev = s.prev ∧ t.run = s.run ∧ t.out = s.out) ∧
    (s.fragLen = 2 → t.frag0 = s.frag0 ∧ t.frag1 = s.frag1) := by
  subst ht
  rcases hl.fragLen_cases with hn | hn | hn
  · rw [acceptByte_of_fragLen_zero hn]
    exact ⟨rfl, fun _ => ⟨rfl, rfl, rfl, rfl⟩, fun h => absurd (hn.symm.trans h) (by decide)⟩
  · rw [acceptByte_of_fragLen_one hn]
    exact ⟨rfl, fun _ => ⟨rfl, rfl, rfl, rfl⟩, fun h => absurd (hn.symm.trans h) (by decide)⟩
  · obtain ⟨bs, n, hshape⟩ := encodePixel_shape c (opaquePixel s.frag0 s.frag1 x) (s.setFragLen 0)
    rw [acceptByte_of_fragLen_two hn, hshape]
    exact ⟨rfl, fun h => absurd hn h, fun _ => ⟨rfl, rfl⟩⟩

/-- Settles O35: each command's next state is its step's (the `_next_iff` lemmas), and the step's equation names what
it writes. -/
theorem commandFrame : Obligations.CommandFrame := by
  refine fun s t => ⟨fun h => ?_, fun h => ?_, fun w k h => ?_, fun x h => ?_, fun h => ?_⟩
  · exact ((execNop_next_iff s t).1 h).2
  · obtain ⟨-, rfl⟩ := (execStatusRead_next_iff s t).1 h
    rfl
  · obtain ⟨-, -, rfl⟩ := (execStart_next_iff w k s t).1 h
    rw [startEncode_eq]
  · obtain ⟨hl, -, ht⟩ := (execData_next_iff x s t).1 h
    exact acceptByte_registers blockConfig x hl ht
  · obtain ⟨-, -, rfl⟩ := (execEnd_next_iff s t).1 h
    rw [finishEncode_eq]

/-! ## The most a command emits -/

theorem startEncode_length (c : Config) (w h : Word32) (s : State) : (startEncode c w h s).out.length = 14 := by
  rw [startEncode_eq]
  exact headerBytes_length w h

/-- R59: of a pixel step's five bytes one is the pending run's. -/
theorem encodePixel_length_le (c : Config) (p : Pixel) (s : State) :
    (encodePixel c p s).out.length ≤ s.out.length + 5 := by
  have hstep := encodePixel_length c p s
  have hpending := s.runBytes_le
  omega

theorem acceptByte_length_le (c : Config) (x : Byte) (s : State) :
    (acceptByte c x s).out.length ≤ s.out.length + 5 := by
  unfold acceptByte
  split
  · simp
  · exact encodePixel_length_le c _ (s.setFragLen 0)

theorem finishEncode_length_le (c : Config) (s : State) : (finishEncode c s).out.length ≤ s.out.length + 9 := by
  have hlen := finishEncode_length c s
  have hpending := s.runBytes_le
  omega

/-- Settles O39: the lengths of the commands' steps. -/
theorem emissionBounds : Obligations.EmissionBounds := by
  refine fun s t => ⟨fun w k h => ?_, fun x h => ?_, fun h => ?_, fun h => ?_⟩
  · obtain ⟨-, -, rfl⟩ := (execStart_next_iff w k s t).1 h
    exact startEncode_length _ w k s
  · obtain ⟨-, -, rfl⟩ := (execData_next_iff x s t).1 h
    exact acceptByte_length_le _ x s
  · obtain ⟨-, -, rfl⟩ := (execEnd_next_iff s t).1 h
    exact finishEncode_length_le _ s
  · obtain ⟨-, rfl⟩ := (execNop_next_iff s t).1 h
    rfl

/-! ## The hold of a finite output buffer -/

/-- R178: the table, as the instructions that have a bound. -/
theorem maxEmit_eq_some_iff (i : Instr) (n : Nat) :
    maxEmit i = some n ↔
      i = .nop ∧ n = 0 ∨ (∃ w h, i = .start w h) ∧ n = 14 ∨ (∃ x, i = .data x) ∧ n = 5 ∨ i = .endEncode ∧ n = 9 := by
  cases i <;> simp [maxEmit, eq_comm]

/-- R178: an instruction with a bound leaves at most that many more bytes waiting at the output port. -/
theorem exec_waiting_le {i : Instr} {n : Nat} {s t : State} (hn : maxEmit i = some n) (h : exec i s = .next t) :
    t.out.length - t.delivered ≤ s.out.length - s.delivered + n := by
  obtain ⟨hstart, hdata, hend, hnop⟩ := emissionBounds s t
  obtain ⟨fnop, -, -, fdata, fend⟩ := commandFrame s t
  rcases (maxEmit_eq_some_iff i n).1 hn with ⟨rfl, rfl⟩ | ⟨⟨w, k, rfl⟩, rfl⟩ | ⟨⟨x, rfl⟩, rfl⟩ | ⟨rfl, rfl⟩
  · rw [fnop h]
    omega
  · have hlen := hstart w k h
    omega
  · have hlen := hdata x h
    have hdelivered : t.delivered = s.delivered := (congrArg State.delivered (fdata x h).1).trans rfl
    omega
  · have hlen := hend h
    have hdelivered : t.delivered = s.delivered := (congrArg State.delivered (fend h)).trans rfl
    omega

/-- R76: an item of the operation stream is no host command. -/
theorem maxEmit_of_decodeOperation {c : Config} {bs : List Byte} {i : Instr} (h : decodeOperation c bs = .ok i) :
    maxEmit i = none := by
  cases bs with
  | nil => cases h
  | cons b rest =>
    simp only [decodeOperation] at h
    split_ifs at h with hrgb hreserved hempty hluma
    · split at h <;> cases h
      rfl
    · cases h
      rfl
    · split at h <;> cases h
      rfl
    all_goals cases h; rfl

/-- R176, R180: what does not come by the command port is no host command. -/
theorem maxEmit_of_decode {c : Config} {t : Transfer} {i : Instr} (h : decode c t = .ok i) (ht : ∀ w, t ≠ .command w) :
    maxEmit i = none := by
  cases t with
  | command w => exact absurd rfl (ht w)
  | statusRead => cases h; rfl
  | item pos bs =>
    cases pos with
    | header =>
      simp only [decode, decodeHeader] at h
      split at h
      · split_ifs at h; cases h; rfl
      · cases h
    | operation => exact maxEmit_of_decodeOperation h
    | finalFlush =>
      simp only [decode, decodeFinalFlush] at h
      split at h
      · split_ifs at h; cases h; rfl
      · cases h
    | terminator =>
      simp only [decode, decodeTerminator] at h
      split_ifs at h
      cases h
      rfl
  | takeByte => cases h
  | reset => cases h

/-- Settles O13: `fetch_cons` asks `held`, which `held_iff` compares with the table's number; what is not held leaves
no more bytes waiting than that number allows (`exec_waiting_le`). -/
theorem finiteBufferHoldsCommand : Obligations.FiniteBufferHoldsCommand := by
  intro c room s t rest i hroom hport hdecode hwaits
  have hfetch : fetch c s = if held c i s then .held else .run i { s with port := rest } := by
    rw [fetch_cons hport, hdecode]
  refine ⟨fun n hn => ?_, fun hother => ?_⟩
  · have hmax := (maxEmit_eq_some_iff i n).2 hn
    have hheld : held c i s = true ↔ room < s.out.length - s.delivered + n := by
      simp [held_iff, hroom, hmax, hwaits]
    refine ⟨fun hfull => ?_, fun hfits => ⟨?_, fun u hu => ?_⟩⟩
    · rw [hfetch, if_pos (hheld.2 hfull)]
    · rw [hfetch, if_neg (mt hheld.1 hfits.not_gt)]
    · exact (exec_waiting_le hmax hu).trans hfits
  · have hmax := maxEmit_of_decode hdecode hother
    have hfree : ¬held c i s = true := by simp [held_iff, hmax]
    rw [hfetch, if_neg hfree]

end Sys2Proof.Machine
end

section
/-! Proofs of the statements about faults and refusals (spec 60 R190 to R197, R203): the outcomes an instruction and a
step can have, the checks' order, and the refusal mark. -/

namespace Sys2Proof.Machine

/-! ## The outcomes of an instruction -/

/-- R197: behind the fault check, a check that refuses or goes on does one of the two. -/
theorem State.guarded_check (s : State) (P : Prop) [Decidable P] (r : Refusal) (u : State) :
    (∃ t, s.guarded (if P then .refused r else .next u) = s.guarded (.next t)) ∨
    ∃ r', s.guarded (if P then .refused r else .next u) = s.guarded (.refused r') := by
  split
  · exact .inr ⟨r, rfl⟩
  · exact .inl ⟨u, rfl⟩

/-- R190, R197: behind the fault check an instruction goes on or is refused; no instruction raises a fault of its own. -/
theorem exec_eq_guarded (i : Instr) (s : State) :
    (∃ t, exec i s = s.guarded (.next t)) ∨ ∃ r, exec i s = s.guarded (.refused r) := by
  cases i with
  | start w h => exact s.guarded_check _ _ _
  | data x => exact s.guarded_check _ _ _
  | endEncode => exact s.guarded_check _ _ _
  | rgbaReserved => exact .inr ⟨_, rfl⟩
  | _ => exact .inl ⟨_, rfl⟩

/-- R193: in a faulted state every instruction is the state's fault. -/
theorem exec_of_fault {s : State} {f : Fault} (hf : s.faultOf = some f) (i : Instr) : exec i s = .fault f := by
  obtain ⟨t, h⟩ | ⟨r, h⟩ := exec_eq_guarded i s
  all_goals rw [h, State.guarded_of_fault hf]

/-- R190: in a legal state no instruction is a fault. -/
theorem exec_ne_fault {s : State} (hl : s.Legal) (i : Instr) (f : Fault) : exec i s ≠ .fault f := by
  obtain ⟨t, h⟩ | ⟨r, h⟩ := exec_eq_guarded i s
  all_goals rw [h, State.guarded_of_legal hl]; simp

/-- R192: no instruction writes the refusal mark. -/
theorem exec_refusalMark {i : Instr} {s t : State} (h : exec i s = .next t) : t.refusalMark = s.refusalMark := by
  obtain ⟨hl, ⟨-, rfl⟩ | ⟨w, k, -, -, rfl⟩ | ⟨x, -, -, ht⟩ | ⟨-, -, rfl⟩ | ⟨-, rfl⟩ | ⟨-, -, -, bs, m, -, rfl⟩⟩ :=
    exec_next_cases h
  · rfl
  · rw [startEncode_eq]
  · obtain ⟨hregisters, -⟩ := acceptByte_registers blockConfig x hl ht
    rw [hregisters]
  · rw [finishEncode_eq]
  · rfl
  · rfl

/-- R179: the command port's instructions are refused for their phase alone. -/
theorem exec_command_refused {w : CmdWord} {i : Instr} {s : State} {r : Refusal} (hl : s.Legal)
    (hd : decodeCommand w = .ok i) (h : exec i s = .refused r) :
    r = .startWhileStreaming ∨ r = .dataOutsideStream ∨ r = .endOutsideStream := by
  obtain rfl | ⟨a, b, rfl⟩ | ⟨x, rfl⟩ | rfl := decodeCommand_ok hd
  · cases (exec_nop hl).symm.trans h
  · by_cases hp : s.phase = phaseStream
    · cases (exec_start_refused hl hp a b).symm.trans h
      exact .inl rfl
    · cases (exec_start hl hp a b).symm.trans h
  · by_cases hp : s.phase = phaseStream
    · cases (exec_data hl hp x).symm.trans h
    · cases (exec_data_refused hl hp x).symm.trans h
      exact .inr (.inl rfl)
  · by_cases hp : s.phase = phaseStream
    · cases (exec_end hl hp).symm.trans h
    · cases (exec_end_refused hl hp).symm.trans h
      exact .inr (.inr rfl)

/-! ## The outcomes of a step -/

/-- Settling brings in no fault. -/
theorem eq_fault_of_settle {s : State} {o : Host.Outcome State Fault Refusal} {f : Fault} (h : settle s o = .fault f) :
    o = .fault f := by
  cases o with
  | next t => cases h
  | fault g => exact h
  | refused r =>
    rw [settle_refused] at h
    split at h <;> cases h

/-- Everything a step from a legal state can be: the state kept, or, with the transfer taken off the port, an
instruction's settled outcome, a refusal recorded, a byte delivered, the reset where the transfer is one, or the stop at
bytes that are no stream item. -/
theorem step_outcomes {s : State} (hl : s.Legal) :
    step s = .next s ∨ ∃ rest,
      (∃ i, step s = settle { s with port := rest } (exec i { s with port := rest })) ∨
      (∃ r, step s = .next (State.refuse { s with port := rest } r)) ∨
      step s = .next (deliver { s with port := rest }) ∨
      (s.port.head? = some .reset ∧ step s = .next (powerOnReset { s with port := rest })) ∨
      step s = .refused .illegalItem := by
  cases hp : s.port with
  | nil => exact .inl (step_of_idle hl hp)
  | cons x rest =>
    refine .inr ⟨rest, ?_⟩
    cases hd : decode blockConfig x with
    | ok i => exact .inl ⟨i, step_of_decodes hl hp hd⟩
    | error e =>
      cases x with
      | command w => exact .inr (.inl ⟨_, step_of_illegalWord hl hp hd⟩)
      | statusRead => cases hd
      | item pos bytes =>
        have hstop : step s = .refused .illegalItem := by
          rw [step, State.guarded_of_legal hl, fetch_cons hp, hd]
          rfl
        exact .inr (.inr (.inr (.inr hstop)))
      | takeByte => exact .inr (.inr (.inl (step_of_takeByte hl hp)))
      | reset => exact .inr (.inr (.inr (.inl ⟨rfl, step_of_reset hl hp⟩)))

/-- R190: in a legal state no step is a fault. -/
theorem step_ne_fault {s : State} (hl : s.Legal) (f : Fault) : step s ≠ .fault f := by
  intro h
  obtain hs | ⟨rest, ⟨i, hs⟩ | ⟨r, hs⟩ | hs | ⟨-, hs⟩ | hs⟩ := step_outcomes hl
  case inr.inl => exact exec_ne_fault (s := { s with port := rest }) hl i f (eq_fault_of_settle (hs.symm.trans h))
  all_goals cases hs.symm.trans h

/-- R178: taking a byte leaves the refusal mark. -/
theorem deliver_refusalMark (s : State) : (deliver s).refusalMark = s.refusalMark := by
  unfold deliver
  split <;> rfl

/-! ## The words of the order of checks (R71 to R73) -/

/-- R73: every payload is a START. -/
theorem decode_commandWord_start (arg : BitVec 64) :
    decode blockConfig (.command (commandWord 1 arg)) =
      .ok (.start (arg.extractLsb' 32 32) (arg.extractLsb' 0 32)) := by
  simp [decode, decodeCommand, Laws.TransferShape.commandWord_op, commandWord_extract]

/-- R72: a payload of DATA above one byte is illegal. -/
theorem decode_commandWord_data_of_le {arg : BitVec 64} (h : 256 ≤ arg.toNat) :
    decode blockConfig (.command (commandWord 2 arg)) = .error .illegalWord := by
  have hhigh : (commandWord 2#2 arg).extractLsb' 8 56 ≠ 0 := by
    rw [commandWord_extract _ _ (by decide), ne_eq, BitVec.toNat_eq, BitVec.extractLsb'_toNat,
      Nat.shiftRight_eq_div_pow]
    have hlt := arg.isLt
    change ¬arg.toNat / 2 ^ 8 % 2 ^ 56 = 0
    omega
  simpa [decode, decodeCommand, Laws.TransferShape.commandWord_op] using hhigh

/-- R72: NOP and END with a payload, and DATA with more than a byte of it, are illegal words. -/
theorem decode_commandWord_illegal {op : BitVec 2} {arg : BitVec 64}
    (h : op = 0 ∧ arg ≠ 0 ∨ op = 2 ∧ 256 ≤ arg.toNat ∨ op = 3 ∧ arg ≠ 0) :
    decode blockConfig (.command (commandWord op arg)) = .error .illegalWord := by
  obtain ⟨rfl, h⟩ | ⟨rfl, h⟩ | ⟨rfl, h⟩ := h
  · rw [decode_commandWord_nop, if_neg h]
  · exact decode_commandWord_data_of_le h
  · rw [decode_commandWord_end, if_neg h]

/-! ## The statements -/

/-- Settles O5, by `step_of_idle`. -/
theorem idlePortKeepsState : Obligations.IdlePortKeepsState := fun _ => step_of_idle

/-- Settles O6: an illegal word is refused before it runs, and a command's refusal is one of the phase
(`exec_command_refused`), which `settle` records. -/
theorem refusedCommandOnlyMarks : Obligations.RefusedCommandOnlyMarks := by
  refine fun s w rest hl hport => ⟨fun e hd => step_of_illegalWord hl hport hd, fun i r hd h => ?_⟩
  obtain ⟨-, -, hrefused⟩ := stepRunsDecodedInstruction s _ rest i hl hport hd
  rw [hrefused r h, if_pos (exec_command_refused (s := { s with port := rest }) hl hd h)]

/-- Settles O7: of the outcomes in `step_outcomes` only the reset clears the mark, and it needs a reset at the port. -/
theorem refusalMarkIsSticky : Obligations.RefusalMarkIsSticky := by
  intro s t hmark hport h
  obtain ⟨hl, -⟩ := (State.guarded_eq_next_iff _ _ _).1 h
  obtain hs | ⟨rest, ⟨i, hs⟩ | ⟨r, hs⟩ | hs | ⟨hreset, -⟩ | hs⟩ := step_outcomes hl
  · cases hs.symm.trans h
    exact hmark
  · obtain hexec | ⟨r, rfl⟩ := settle_next_cases (hs.symm.trans h)
    · exact (exec_refusalMark hexec).trans hmark
    · rfl
  · cases hs.symm.trans h
    rfl
  · cases hs.symm.trans h
    exact (deliver_refusalMark _).trans hmark
  · exact absurd hreset hport
  · cases hs.symm.trans h

/-- Settles O8: the guard comes first; in a legal state the word's decoding, then the phase, decide, and
`refusedCommandOnlyMarks` records either refusal. -/
theorem checksInOrder : Obligations.ChecksInOrder := by
  refine ⟨fun s f hf => State.guarded_of_fault hf _, fun s op arg rest hl hport hbad => ?_,
    fun s x rest hl hp hport => ?_, fun s rest hl hp hport => ?_, fun s arg rest hl hp hport => ?_⟩
  all_goals obtain ⟨hillegal, hrefused⟩ := refusedCommandOnlyMarks s _ rest hl hport
  · exact hillegal _ (decode_commandWord_illegal hbad)
  · exact hrefused _ _ (decode_encode_data x) (exec_data_refused (s := { s with port := rest }) hl hp x)
  · exact hrefused _ _ decode_encode_end (exec_end_refused (s := { s with port := rest }) hl hp)
  · exact hrefused _ _ (decode_commandWord_start arg)
      (exec_start_refused (s := { s with port := rest }) hl hp _ _)

/-- Settles O9: `State.faultOf` names the first illegal register, and the guard answers it for steps and instructions. -/
theorem faultedStateAlwaysFaults : Obligations.FaultedStateAlwaysFaults := by
  have faults {s : State} {f : Fault} (hf : s.faultOf = some f) : step s = .fault f ∧ ∀ i, exec i s = .fault f :=
    ⟨State.guarded_of_fault hf _, exec_of_fault hf⟩
  refine fun s => ⟨fun hphase => faults ?_, fun hphase hrun => faults ?_, fun hphase hrun hfrag => faults ?_⟩
  · rw [State.faultOf, if_pos hphase]
  · rw [State.faultOf, if_neg hphase, if_pos hrun]
  · rw [State.faultOf, if_neg hphase, if_neg hrun, if_pos hfrag]

/-- Settles O10, by `step_ne_fault` and `exec_ne_fault`. -/
theorem legalStateNeverFaults : Obligations.LegalStateNeverFaults := fun _ hl => ⟨step_ne_fault hl, exec_ne_fault hl⟩

end Sys2Proof.Machine
end

section
/-! Proof of the statement about a power-on reset of a running block (spec 70 R210, R211; log 16): the step is
`powerOnReset`, which leaves the host's side as it was. -/

namespace Sys2Proof.Machine

/-- R211: an abandoned encode has no result, since the block is IDLE. -/
theorem powerOnReset_result (s : State) : (powerOnReset s).result = none :=
  (resultOnlyOfLegalDone _).2 (.inl (show phaseIdle ≠ phaseDone by decide))

/-- Settles O12: the step is `powerOnReset` (`step_of_reset`), whose fields are the reset values or the host's, and
which has no result (`powerOnReset_result`). -/
theorem powerOnResetAbandonsEncode : Obligations.PowerOnResetAbandonsEncode := by
  intro s rest hl hport
  exact ⟨_, step_of_reset hl hport, rfl, rfl, rfl, powerOnReset_result _, rfl, rfl⟩

end Sys2Proof.Machine
end
